-- ==== Sys2Proof/Word.lean ====
section
/-! DEFINITION. The plainest data of the model: the unsigned words a message field arrives in, a table of a fixed
number of rows, and the arithmetic of saturating counters and truncating divisions that the manual's Conventions fix. -/

namespace Sys2Proof

/-- A one-byte field of a message (R159: a field is sent in the fewest whole bytes that hold its range). -/
abbrev Byte := BitVec 8
/-- A two-byte field of a message. -/
abbrev Half := BitVec 16
/-- A three-byte field of a message, as a week-second is sent. -/
abbrev Tri := BitVec 24
/-- The 32 levels one extender board captures at a scan (R147). -/
abbrev Quad := BitVec 32

/-- A record table with a fixed number of rows, row `i` at index `i`. -/
structure Table (n : Nat) (α : Type) where
  rows : List α
  size : rows.length = n
deriving DecidableEq, Repr

/-- Every index of a table of `n` rows, ascending. -/
def indices (n : Nat) : List (Fin n) := List.finRange n

namespace Table
variable {n : Nat} {α β : Type}

def get (t : Table n α) (i : Fin n) : α := t.rows.get (i.cast t.size.symm)
def set (t : Table n α) (i : Fin n) (a : α) : Table n α := ⟨t.rows.set i.val a, by simp [t.size]⟩
def modify (t : Table n α) (i : Fin n) (f : α → α) : Table n α := t.set i (f (t.get i))
def fill (n : Nat) (a : α) : Table n α := ⟨List.replicate n a, by simp⟩
def ofFn (f : Fin n → α) : Table n α := ⟨List.ofFn f, by simp⟩
def map (f : α → β) (t : Table n α) : Table n β := ⟨t.rows.map f, by simp [t.size]⟩
/-- Replace every row `i` by `f i row`. -/
def mapIdx (f : Fin n → α → β) (t : Table n α) : Table n β := ofFn (fun i => f i (t.get i))
/-- Drop row 0, move every other row down by one, and put `a` in the last row. -/
def shiftIn (t : Table (n + 1) α) (a : α) : Table (n + 1) α :=
  ⟨t.rows.tail ++ [a], by simp [t.size]⟩
def sum (t : Table n Nat) : Nat := t.rows.sum

end Table

/-- A counter increased by `k` that stays at its maximum `top` (Conventions: counters saturate). -/
def satAdd (top a k : Nat) : Nat := min top (a + k)

/-- `v` moved to the nearer end of `lo..hi`. -/
def clampNat (lo hi v : Nat) : Nat := max lo (min hi v)

/-- `v` moved to the nearer end of `lo..hi`. -/
def clampInt (lo hi v : Int) : Int := max lo (min hi v)

/-- The ceiling of `a / b`, for `b` above 0. -/
def ceilDiv' (a b : Nat) : Nat := (a + (b - 1)) / b

/-- The largest `i` in `1..n` for which `p i` holds, and 0 when there is none. -/
def largestWhere (p : Nat → Bool) : Nat → Nat
  | 0 => 0
  | n + 1 => if p (n + 1) then n + 1 else largestWhere p n

end Sys2Proof
end

