-- ==== Sys2Proof/Config.lean ====
section
/-! DEFINITION. What the part fixes for good: the capacities and ranges the manual states, and the free values, which
the manual leaves open. A free value is an opaque constant: nothing in Lean can compute or prove a value of it. -/

namespace Sys2Proof.Config

/-- Week-seconds 0..604,799 (R1). -/
def weekSeconds : Nat := 604800
/-- Minutes of week 0..10,079 (R1). -/
def weekMinutes : Nat := 10080
/-- Minutes of day 0..1439. -/
def dayMinutes : Nat := 1440
def daySeconds : Nat := 86400
/-- Ticks of one second, numbered 0..15 (R1). -/
def ticksPerSecond : Nat := 16
/-- Frames one outbound queue holds (R163). -/
def queueFrames : Nat := 8
/-- Edits the staging list holds (R31). -/
def stagingEdits : Nat := 16
/-- Records the door event queue holds (R58). -/
def doorRecords : Nat := 64
/-- Records one DOOR_BATCH or DOORQ_READ body holds (R60, R62). -/
def batchRecords : Nat := 24
/-- Entries the forecast table holds (R56). -/
def forecastEntries : Nat := 8
/-- Body bytes one frame holds at most (R159). -/
def bodyBytes : Nat := 248
/-- The longest phase override, in seconds (R15). -/
def overrideSeconds : Nat := 86400
/-- The furthest end of an extension, in seconds (R17). -/
def extendSeconds : Nat := 14400
/-- The maximum of the saturating counters that the manual bounds by 65,535. -/
def max16 : Nat := 65535
/-- The maximum of the saturating counters that the manual bounds by 4,294,967,295. -/
def max32 : Nat := 4294967295
/-- The vendor code IDENT returns (R169). -/
def vendorCode : Nat := 0x2A61
/-- The part code IDENT returns (R169). -/
def partCode : Nat := 240
/-- The revision letter of the part the manual describes (R169). -/
def revisionLetter : Char := 'B'

/-- FREE VALUE (assumption 15): the level LINE_READ reports as captured on a line of a present board that has given no
good scan since the reset. R155 names "the level captured at the last good scan" and there is none yet. The argument
is the line. -/
opaque unscannedLevel : Nat → Bool

/-- FREE VALUE (assumption 35): the number R60 gives the first part of a DOOR_BATCH run. R60 marks each part with its
part number and the number of parts and does not say where the numbering starts; the parts of one run are numbered
onward from here. -/
opaque firstPart : Nat

end Sys2Proof.Config
end

