-- ==== Sys2Proof/Syntax.lean ====
section
/-! DEFINITION. The commands of the DT-240: one constructor of `Instr` for each row of the opcode table, with the
operands the row's rule gives it. A call carries the link and tag it arrived with and its body's fields; an event
carries what the outside supplies (captured levels, a reply frame, which record it concerns). -/

namespace Sys2Proof

/-- The six phases, in the order R5 lists them. -/
inductive Phase
  | setback | preheat | work | breakTime | changeover | cleandown
deriving DecidableEq, Repr

/-- The two serial links (R158). -/
inductive Link
  | supervisor | panel
deriving DecidableEq, Repr

/-- When a write to the phase tables or the calendar takes effect (R28). -/
inductive WriteMode
  | atOnce | staged
deriving DecidableEq, Repr

/-- The mode of a zone, in the order R83 lists them. -/
inductive ZoneMode
  | off | auto | degraded | manual
deriving DecidableEq, Repr

/-- The mode a zone starts in (R82). -/
inductive StartMode
  | off | auto
deriving DecidableEq, Repr

/-- What a sensor node measures, in the order R67 lists them. -/
inductive NodeType
  | temp | gas | outdoor | daylight
deriving DecidableEq, Repr

/-- Whether a reply with a wrong check may be used (R67). -/
inductive CheckFilter
  | reject | accept
deriving DecidableEq, Repr

/-- What the luminaires of a group light (R128). -/
inductive GroupKind
  | aisle | dock | yard
deriving DecidableEq, Repr

/-- The direction of a line (R149). -/
inductive LineMode
  | input | output
deriving DecidableEq, Repr

/-- The two non-volatile areas of the Settings Store (R171). -/
inductive Area
  | commissioning | operating
deriving DecidableEq, Repr

/-- Which summary SHIFT_READ asks for (R182). -/
inductive WhichShift
  | current | previous
deriving DecidableEq, Repr

/-- The two sensors of a door channel: its contact and its trailer sensor. -/
inductive DoorSensor
  | contact | trailer
deriving DecidableEq, Repr

/-- A value sent as a code that should name a member of `α`: `none` is a code that names none of them. -/
abbrev Named (α : Type) := Option α

/-- The link a call arrived on and the tag its caller chose (R159, R162). -/
structure Origin where
  link : Link
  tag  : Byte
deriving DecidableEq, Repr

/-- The body of a call: `none` is a body that does not hold the fields of its kind (R162, step 3). -/
abbrev Body (α : Type) := Option α

/-- The known calls, in the order of the manual's table of every call. -/
inductive CallKind
  | clockSet | clockRead | calWrite | calRead | calSettings | phaseRead
  | phaseForce | phaseExtend | phaseRelease | phaseWrite | sceneWrite | stagedRead
  | stagedDiscard | phaseTableRead | sceneRead | doorConfig | doorRead | curtainConfig
  | arrivalForecast | doorqThresholds | doorqNotices | doorqRead | doorqFlush | nodeConfig
  | nodeRead | sourceMapWrite | sensorLimits | zoneConfig | zoneMode | zoneManual
  | cyclePeriod | climateSettings | zoneRead | capSet | capClear | ratingsWrite
  | stageTimes | budgetRead | groupConfig | lightSettings | groupOverride | groupRelease
  | groupRead | lineConfig | lineDrive | lineRead | ident | flagsRead
  | flagsClear | flagsEnable | storeSave | storeStatus | restart | shiftRead
deriving DecidableEq, Repr

/-! ### The fields of the calls, each in the order its rule names them -/

structure ClockSetArgs where
  weekSecond : Tri
deriving DecidableEq, Repr

/-- CAL_WRITE (R6). Bit `i` of `days` is day `i`, MON first. -/
structure CalWriteArgs where
  index      : Byte
  enabled    : Bool
  days       : BitVec 7
  start      : Half
  phase      : Named Phase
  shiftStart : Bool
  allowance  : Byte
  mode       : Named WriteMode
deriving DecidableEq, Repr

structure IndexArgs where
  index : Byte
deriving DecidableEq, Repr

/-- CAL_SETTINGS (R19), both fields optional. -/
structure CalSettingsArgs where
  noClock  : Option (Named Phase)
  leadRate : Option Byte
deriving DecidableEq, Repr

structure PhaseForceArgs where
  phase   : Named Phase
  minutes : Half
deriving DecidableEq, Repr

structure PhaseExtendArgs where
  minutes : Byte
deriving DecidableEq, Repr

/-- One item of PHASE_WRITE's field list (R28): a field of R24 and its value. -/
inductive PhaseItem
  | setpoint (zone : Byte) (code : Byte)
  | ventMinimum (stages : Byte)
  | fallback (stages : Byte)
  | longOpen (minutes : Byte)
  | phaseCap (units : Half)
  | noSuchField
deriving DecidableEq, Repr

structure PhaseWriteArgs where
  phase : Named Phase
  items : List PhaseItem
  mode  : Named WriteMode
deriving DecidableEq, Repr

structure SceneWriteArgs where
  phase  : Named Phase
  group  : Byte
  level  : Byte
  vacant : Byte
  floor  : Byte
  mode   : Named WriteMode
deriving DecidableEq, Repr

structure PhaseTableReadArgs where
  phase : Named Phase
deriving DecidableEq, Repr

structure SceneReadArgs where
  phase : Named Phase
  group : Byte
deriving DecidableEq, Repr

/-- DOOR_CONFIG (R64). Bit `i` of `capture` is OPENED, CLOSED, TRAILER_ARRIVED, TRAILER_LEFT in that order. -/
structure DoorConfigArgs where
  door            : Byte
  configured      : Bool
  zone            : Option Byte
  curtain         : Option Byte
  doorDebounce    : Byte
  trailerDebounce : Byte
  capture         : BitVec 4
deriving DecidableEq, Repr

structure CurtainConfigArgs where
  curtain    : Byte
  configured : Option Bool
  zone       : Option Byte
  runOn      : Option Byte
deriving DecidableEq, Repr

structure ArrivalForecastArgs where
  door   : Byte
  within : Byte
deriving DecidableEq, Repr

structure DoorqThresholdsArgs where
  busy  : Option Byte
  quiet : Option Byte
deriving DecidableEq, Repr

structure OnOffArgs where
  on : Bool
deriving DecidableEq, Repr

structure DoorqReadArgs where
  count : Byte
deriving DecidableEq, Repr

structure NodeConfigArgs where
  node       : Byte
  configured : Option Bool
  type       : Option (Named NodeType)
  filter     : Option (Named CheckFilter)
deriving DecidableEq, Repr

/-- The entry of the source map an item of SOURCE_MAP_WRITE names (R78). -/
inductive SourceEntry
  | temperature (zone : Byte)
  | gas (zone : Byte)
  | outdoor
  | daylight
  | noSuchEntry
deriving DecidableEq, Repr

/-- One item of SOURCE_MAP_WRITE: `node` absent is *none* (R79). -/
structure SourceItem where
  entry : SourceEntry
  node  : Option Byte
deriving DecidableEq, Repr

structure SourceMapArgs where
  items : List SourceItem
deriving DecidableEq, Repr

/-- The operands of SENSOR_LIMITS (R77). DESIGN CHOICE: the stale limit is held here in two bytes, so that one above 255,
which R77 takes as 255, can be commanded; a frame carries it in the one byte that holds 5..255 (R159, assumption 52). -/
structure SensorLimitsArgs where
  stale   : Option Half
  degrade : Option Half
  assumed : Option Byte
deriving DecidableEq, Repr

structure ZoneConfigArgs where
  zone             : Byte
  heaterStages     : Byte
  fanStages        : Byte
  step             : Byte
  hysteresis       : Byte
  doorCoefficient  : Byte
  makeUp           : Byte
  boost            : Byte
  setpointLow      : Byte
  setpointHigh     : Byte
  bandLow          : Byte
  bandHigh         : Byte
  trailersPerStage : Byte
  startMode        : Named StartMode
deriving DecidableEq, Repr

structure ZoneModeArgs where
  zone : Byte
  mode : Named ZoneMode
deriving DecidableEq, Repr

structure ZoneManualArgs where
  zone : Byte
  heat : Byte
  fans : Byte
deriving DecidableEq, Repr

structure CyclePeriodArgs where
  setting : Option Byte
deriving DecidableEq, Repr

structure ClimateSettingsArgs where
  g1             : Option Half
  g2             : Option Half
  g3             : Option Half
  deviationLimit : Option Half
deriving DecidableEq, Repr

structure CapSetArgs where
  units   : Half
  minutes : Half
deriving DecidableEq, Repr

/-- One item of RATINGS_WRITE (R111): a rating of R110 and its value. -/
inductive RatingItem
  | heater (zone : Byte) (stage : Byte) (units : Half)
  | fan (zone : Byte) (units : Half)
  | curtain (curtain : Byte) (units : Half)
  | group (group : Byte) (units : Half)
  | noSuchRating
deriving DecidableEq, Repr

structure RatingsArgs where
  items : List RatingItem
deriving DecidableEq, Repr

structure StageTimesArgs where
  minimumOn  : Option Half
  minimumOff : Option Half
deriving DecidableEq, Repr

structure GroupConfigArgs where
  group     : Byte
  enabled   : Bool
  zone      : Byte
  kind      : Named GroupKind
  doorLinked : Bool
  trimmed   : Bool
  hold      : Byte
  rampRate  : Byte
deriving DecidableEq, Repr

structure LightSettingsArgs where
  luxStart : Option Half
  gain     : Option Byte
deriving DecidableEq, Repr

structure GroupOverrideArgs where
  group   : Byte
  level   : Byte
  minutes : Byte
deriving DecidableEq, Repr

/-- A binding as a call carries it: a function code and its arguments (R149). -/
inductive RawBinding
  | doorContact (door : Byte)
  | trailer (door : Byte)
  | occupancy (group : Byte)
  | heat (zone : Byte) (stage : Byte)
  | fan (zone : Byte) (stage : Byte)
  | curtain (curtain : Byte)
  | spareIn
  | spareOut
  | noSuchFunction
deriving DecidableEq, Repr

structure LineConfigArgs where
  line    : Byte
  mode    : Named LineMode
  pullUp  : Bool
  invert  : Bool
  binding : RawBinding
deriving DecidableEq, Repr

structure LineDriveArgs where
  line : Byte
  on   : Bool
deriving DecidableEq, Repr

/-- A set of attention flags, bit `i` the `i`-th flag of R166. -/
structure FlagSetArgs where
  flags : BitVec 10
deriving DecidableEq, Repr

structure StoreSaveArgs where
  commissioning : Bool
  operating     : Bool
deriving DecidableEq, Repr

structure RestartArgs where
  keepClock : Bool
deriving DecidableEq, Repr

structure ShiftReadArgs where
  which : Named WhichShift
deriving DecidableEq, Repr

/-! ### What the field side supplies -/

/-- The levels each board position returns at one scan, `none` for a return that is bad or missing (R148). -/
abbrev Capture := Table 6 (Option Quad)

/-- The events of the blocks that one tick may bring, in the order the model takes them when a tick names no order.
R3, R18, R48, R49, R89, R179 and R181 leave the order of events at the same instant open: a TICK command names it. -/
inductive TickEvent
  | scan | overrideSecond | calendarMinute | clockMinute | doorSecond | curtainSecond | forecastSecond | ringMinute
  | nodeSecond | capSecond | stageSecond | lightSecond | cycleSecond | accountSecond | takeDue
deriving DecidableEq, Repr

/-- A reply frame of the sensor bus as received: its three fields and the check it carries (R70). -/
structure ReplyFrame where
  address : Byte
  type    : Byte
  value   : Half
  check   : Byte
deriving DecidableEq, Repr

/-- Why a frame is discarded (R160). A byte that comes more than 20 ms late is then taken as HUNTING takes it. -/
inductive DiscardCause
  | badLength
  | badStopBit
  | lateByte (byte : Byte)
  | badCheck
  | notACall
deriving DecidableEq, Repr

/-- The commands: one constructor per row of spec/opcode_table.json, in the table's order. -/
inductive Instr
  | powerOn (boards : BitVec 6)
  | resetTakesEffect (boards : BitVec 6)
  | tick (capture : Capture) (order : List TickEvent)
  | firstSettlement (door : Fin 32) (sensor : DoorSensor)
  | doorOpened (door : Fin 32)
  | doorClosed (door : Fin 32)
  | settledTrailerEdge (door : Fin 32)
  | doorHeld (door : Fin 32)
  | runOnEnd (curtain : Fin 16)
  | windowEnd (door : Fin 32)
  | overrideTimeEnd
  | capExpiry
  | holdExpiry (group : Fin 24)
  | groupOverrideEnd (group : Fin 24)
  | cycleTimerExpiry
  | minimumOnEnd (zone : Fin 8)
  | nodeHeld (node : Fin 16)
  | nodeLost (node : Fin 16)
  | replyReceived (reply : ReplyFrame)
  | pollWaitEnd
  | linkHold (link : Link)
  | linkRelease (link : Link)
  | frameDiscarded (link : Link) (cause : DiscardCause)
  | frameSent (link : Link)
  | unknownCall (origin : Origin) (kind : Byte)
  | areaWriteComplete (agrees : Bool)
  | keyFall
  | clockSet (origin : Origin) (body : Body ClockSetArgs)
  | clockRead (origin : Origin) (body : Body Unit)
  | calWrite (origin : Origin) (body : Body CalWriteArgs)
  | calRead (origin : Origin) (body : Body IndexArgs)
  | calSettings (origin : Origin) (body : Body CalSettingsArgs)
  | phaseRead (origin : Origin) (body : Body Unit)
  | phaseForce (origin : Origin) (body : Body PhaseForceArgs)
  | phaseExtend (origin : Origin) (body : Body PhaseExtendArgs)
  | phaseRelease (origin : Origin) (body : Body Unit)
  | phaseWrite (origin : Origin) (body : Body PhaseWriteArgs)
  | sceneWrite (origin : Origin) (body : Body SceneWriteArgs)
  | stagedRead (origin : Origin) (body : Body IndexArgs)
  | stagedDiscard (origin : Origin) (body : Body Unit)
  | phaseTableRead (origin : Origin) (body : Body PhaseTableReadArgs)
  | sceneRead (origin : Origin) (body : Body SceneReadArgs)
  | doorConfig (origin : Origin) (body : Body DoorConfigArgs)
  | doorRead (origin : Origin) (body : Body IndexArgs)
  | curtainConfig (origin : Origin) (body : Body CurtainConfigArgs)
  | arrivalForecast (origin : Origin) (body : Body ArrivalForecastArgs)
  | doorqThresholds (origin : Origin) (body : Body DoorqThresholdsArgs)
  | doorqNotices (origin : Origin) (body : Body OnOffArgs)
  | doorqRead (origin : Origin) (body : Body DoorqReadArgs)
  | doorqFlush (origin : Origin) (body : Body Unit)
  | nodeConfig (origin : Origin) (body : Body NodeConfigArgs)
  | nodeRead (origin : Origin) (body : Body IndexArgs)
  | sourceMapWrite (origin : Origin) (body : Body SourceMapArgs)
  | sensorLimits (origin : Origin) (body : Body SensorLimitsArgs)
  | zoneConfig (origin : Origin) (body : Body ZoneConfigArgs)
  | zoneMode (origin : Origin) (body : Body ZoneModeArgs)
  | zoneManual (origin : Origin) (body : Body ZoneManualArgs)
  | cyclePeriod (origin : Origin) (body : Body CyclePeriodArgs)
  | climateSettings (origin : Origin) (body : Body ClimateSettingsArgs)
  | zoneRead (origin : Origin) (body : Body IndexArgs)
  | capSet (origin : Origin) (body : Body CapSetArgs)
  | capClear (origin : Origin) (body : Body Unit)
  | ratingsWrite (origin : Origin) (body : Body RatingsArgs)
  | stageTimes (origin : Origin) (body : Body StageTimesArgs)
  | budgetRead (origin : Origin) (body : Body Unit)
  | groupConfig (origin : Origin) (body : Body GroupConfigArgs)
  | lightSettings (origin : Origin) (body : Body LightSettingsArgs)
  | groupOverride (origin : Origin) (body : Body GroupOverrideArgs)
  | groupRelease (origin : Origin) (body : Body IndexArgs)
  | groupRead (origin : Origin) (body : Body IndexArgs)
  | lineConfig (origin : Origin) (body : Body LineConfigArgs)
  | lineDrive (origin : Origin) (body : Body LineDriveArgs)
  | lineRead (origin : Origin) (body : Body IndexArgs)
  | ident (origin : Origin) (body : Body Unit)
  | flagsRead (origin : Origin) (body : Body Unit)
  | flagsClear (origin : Origin) (body : Body FlagSetArgs)
  | flagsEnable (origin : Origin) (body : Body FlagSetArgs)
  | storeSave (origin : Origin) (body : Body StoreSaveArgs) (key : Bool)
  | storeStatus (origin : Origin) (body : Body Unit) (key : Bool)
  | restart (origin : Origin) (body : Body RestartArgs)
  | shiftRead (origin : Origin) (body : Body ShiftReadArgs)
  | frameBegins (link : Link)
  | lossOfPower
  | resetPinLow
deriving DecidableEq, Repr

end Sys2Proof
end

