-- ==== Sys2Proof/Machine/Records.lean ====
section
/-! DEFINITION. The records the blocks of the DT-240 hold, each as the rule that lists its fields gives it, with the
defaults a BLANK or DAMAGED area of the Settings Store leaves (R176). -/

namespace Sys2Proof.Machine

/-! ### Shed Clock and Shift Calendar -/

/-- The shed clock (R1, R2). -/
structure Clock where
  weekSecond : Nat
  tick       : Nat
  running    : Bool
deriving DecidableEq, Repr

/-- A calendar entry (R5). Bit `i` of `days` is day `i`, MON first. -/
structure CalEntry where
  enabled    : Bool
  days       : BitVec 7
  start      : Nat
  phase      : Phase
  shiftStart : Bool
  allowance  : Nat
deriving DecidableEq, Repr

/-- What put the phase in force (R8). -/
inductive Source
  | calendar | lead | forced | extended | noClock
deriving DecidableEq, Repr

/-- The override record: seconds remaining, or none for an override with no end (R15). -/
structure Override where
  remaining : Option Nat
deriving DecidableEq, Repr

/-- The phase record (R8). -/
structure PhaseRecord where
  phase    : Phase
  source   : Source
  entered  : Nat
  override : Option Override
deriving DecidableEq, Repr

/-- A phase parameter record (R24). -/
structure PhaseParams where
  setpoints : Table 8 Nat
  vent      : Nat
  fallback  : Nat
  longOpen  : Nat
  cap       : Nat
deriving DecidableEq, Repr

/-- A scene of the scene table (R26). -/
structure Scene where
  level  : Nat
  vacant : Nat
  floor  : Nat
deriving DecidableEq, Repr

/-- Some fields of a phase parameter record: those a write names or a staged edit holds (R28, R31). -/
structure PhaseFields where
  setpoints : Table 8 (Option Nat)
  vent      : Option Nat
  fallback  : Option Nat
  longOpen  : Option Nat
  cap       : Option Nat
deriving DecidableEq, Repr

/-- The key of a staged edit (R31). -/
inductive EditKey
  | entry (index : Fin 24)
  | params (phase : Phase)
  | scene (phase : Phase) (group : Fin 24)
deriving DecidableEq, Repr

/-- A staged edit: its key and its content (R31). A scene edit's floor is absent after a panel write (R38). -/
inductive Edit
  | entry (index : Fin 24) (content : CalEntry)
  | params (phase : Phase) (fields : PhaseFields)
  | scene (phase : Phase) (group : Fin 24) (level vacant : Nat) (floor : Option Nat)
deriving DecidableEq, Repr

/-- An edit in the staging list with the link its content last came from (R35). -/
structure StagedEdit where
  edit : Edit
  link : Link
deriving DecidableEq, Repr

/-- The Shift Calendar: the calendar and its settings, the phase record, the staging list and the Phase Tables. -/
structure Calendar where
  entries  : Table 24 CalEntry
  noClock  : Phase
  leadRate : Nat
  record   : PhaseRecord
  staging  : List StagedEdit
  params   : Table 6 PhaseParams
  scenes   : Table 6 (Table 24 Scene)
deriving DecidableEq, Repr

/-! ### Door Unit -/

structure DoorConfig where
  configured      : Bool
  zone            : Option (Fin 8)
  curtain         : Option (Fin 16)
  doorDebounce    : Nat
  trailerDebounce : Nat
  capture         : BitVec 4
deriving DecidableEq, Repr

inductive DoorState
  | unused | closed | opened | held
deriving DecidableEq, Repr

/-- A pending change of level: the level seen and the ticks remaining (R40, R42). With 0 ticks remaining the change has
settled and its settled edge or first settlement is to be taken. -/
structure Pending where
  level : Bool
  ticks : Nat
deriving DecidableEq, Repr

/-- A door channel (R40). `trailerSettled` records that the trailer sensor has had its first settlement (R41). -/
structure Channel where
  config         : DoorConfig
  state          : DoorState
  trailer        : Bool
  trailerSettled : Bool
  doorPending    : Option Pending
  trailerPending : Option Pending
  interval       : Nat
  lastEdge       : Option Nat
  lastOpen       : Option Nat
  lastClosed     : Option Nat
  openings       : Nat
  openSeconds    : Nat
  longest        : Nat
deriving DecidableEq, Repr

structure CurtainConfig where
  configured : Bool
  zone       : Fin 8
  runOn      : Nat
deriving DecidableEq, Repr

inductive CurtainState
  | idle | demanded | runOn
deriving DecidableEq, Repr

/-- A curtain record (R51). `granted` is written by the Load Allocator. -/
structure Curtain where
  config    : CurtainConfig
  state     : CurtainState
  remaining : Option Nat
  granted   : Bool
deriving DecidableEq, Repr

/-- A zone's open-time ring: the current slot and five completed slots, oldest first (R49). -/
structure Ring where
  current   : Nat
  completed : Table 5 Nat
deriving DecidableEq, Repr

/-- An entry of the forecast table (R56). -/
structure Forecast where
  door    : Fin 32
  seconds : Nat
deriving DecidableEq, Repr

inductive RecordKind
  | opened | closed | held | trailerArrived | trailerLeft
deriving DecidableEq, Repr

/-- A record of the door event queue (R58). -/
structure DoorRecord where
  door     : Fin 32
  kind     : RecordKind
  time     : Nat
  phase    : Phase
  interval : Option Nat
deriving DecidableEq, Repr

/-- The Door Unit. -/
structure Doors where
  channels  : Table 32 Channel
  curtains  : Table 16 Curtain
  rings     : Table 8 Ring
  forecasts : List Forecast
  queue     : List DoorRecord
  busy      : Nat
  quiet     : Nat
  notices   : Bool
deriving DecidableEq, Repr

/-! ### Sensor Bus Master -/

structure NodeConfig where
  configured : Bool
  type       : NodeType
  filter     : CheckFilter
deriving DecidableEq, Repr

inductive NodeStatus
  | unconfigured | fresh | suspect | held | lost
deriving DecidableEq, Repr

/-- A node record (R67). -/
structure Node where
  config   : NodeConfig
  value    : Option Nat
  status   : NodeStatus
  age      : Nat
  failures : Nat
deriving DecidableEq, Repr

/-- The source map (R78). Node `i` of the model is the bus address `i + 1`. -/
structure SourceMap where
  temperature : Table 8 (Option (Fin 16))
  gas         : Table 8 (Option (Fin 16))
  outdoor     : Option (Fin 16)
  daylight    : Option (Fin 16)
deriving DecidableEq, Repr

/-- The Sensor Bus Master. `polled` is the node whose poll is in progress; `roundMark` is set by a good reply (R76). -/
structure Sensors where
  nodes     : Table 16 Node
  map       : SourceMap
  stale     : Nat
  degrade   : Nat
  assumed   : Nat
  polled    : Option (Fin 16)
  roundMark : Bool
deriving DecidableEq, Repr

/-! ### Zone Climate Engine -/

structure ZoneConfig where
  heaterStages     : Nat
  fanStages        : Nat
  step             : Nat
  hysteresis       : Nat
  doorCoefficient  : Nat
  makeUp           : Nat
  boost            : Nat
  setpointLow      : Nat
  setpointHigh     : Nat
  bandLow          : Nat
  bandHigh         : Nat
  trailersPerStage : Nat
  startMode        : StartMode
deriving DecidableEq, Repr

/-- A source reading as handed to a reader: its status and, unless LOST, its value (R80). -/
structure Reading where
  status : NodeStatus
  value  : Option Nat
deriving DecidableEq, Repr

/-- The working figures of the latest cycle, each absent where the cycle did not form it (R81, R105). -/
structure Working where
  setpoint     : Option Nat
  setpointWork : Option Nat
  temperature  : Option Reading
  outdoor      : Option Reading
  gas          : Option Reading
  openTime     : Option Nat
  trailers     : Option Nat
  forecast     : Option Bool
  grantedFans  : Option Nat
  error        : Option Int
  deltaT       : Option Nat
  doorLoss     : Option Nat
  makeUp       : Option Nat
  boost        : Option Nat
  plainRequest : Option Nat
  gasStages    : Option Nat
  trailerStages : Option Nat
deriving DecidableEq, Repr

/-- The results of a zone's latest control cycle (R81). -/
structure ZoneResults where
  effective : Option Int
  heat      : Nat
  fans      : Nat
  gasFloor  : Nat
  share     : Option Nat
  working   : Working
deriving DecidableEq, Repr

/-- A zone record (R81). -/
structure Zone where
  config     : ZoneConfig
  mode       : ZoneMode
  manualHeat : Nat
  manualFans : Nat
  results    : ZoneResults
deriving DecidableEq, Repr

/-- The Zone Climate Engine. -/
structure Climate where
  zones          : Table 8 Zone
  timer          : Nat
  setting        : Nat
  cycles         : Nat
  g1             : Nat
  g2             : Nat
  g3             : Nat
  deviationLimit : Nat
  deviation      : Nat
  deficit        : Nat
deriving DecidableEq, Repr

/-! ### Load Allocator -/

/-- A supervisor cap: its units and seconds remaining, none for a cap without end (R106). -/
structure SupervisorCap where
  units     : Nat
  remaining : Option Nat
deriving DecidableEq, Repr

/-- The ratings table (R110). Row `i` of a zone's heater ratings is stage `i + 1`. -/
structure Ratings where
  heaters  : Table 8 (Table 4 Nat)
  fans     : Table 8 Nat
  curtains : Table 16 Nat
  groups   : Table 24 Nat
deriving DecidableEq, Repr

/-- One zone's part of a demand set (R104). -/
structure ZoneDemand where
  mode      : ZoneMode
  effective : Option Int
  heat      : Nat
  fans      : Nat
  gasFloor  : Nat
deriving DecidableEq, Repr

/-- What the allocator holds for a zone: the stages granted, each heater stage's time since change (R112), and the
committed stages and floor fans that the reserved total held counts for the zone (R127). A heater stage is on exactly
while it is granted, so `heat` also says which stages are on. -/
structure ZoneGrant where
  heat      : Nat
  fans      : Nat
  times     : Table 4 Nat
  committed : Nat
  floorFans : Nat
deriving DecidableEq, Repr

/-- What the allocator holds for a lamp group: the granted level and the last request (R114, R127). -/
structure GroupGrant where
  level        : Nat
  floorRequest : Nat
  levelRequest : Nat
deriving DecidableEq, Repr

/-- The Load Allocator. The granted field of each curtain is held in the curtain record (R51, R127). -/
structure Allocator where
  phaseCap : Nat
  supCap   : Option SupervisorCap
  ratings  : Ratings
  minOn    : Nat
  minOff   : Nat
  zones    : Table 8 ZoneGrant
  groups   : Table 24 GroupGrant
  demand   : Option (Table 8 ZoneDemand)
  reserved : Nat
  total    : Nat
  passes   : Nat
deriving DecidableEq, Repr

/-! ### Lighting Unit -/

structure GroupConfig where
  enabled    : Bool
  zone       : Fin 8
  kind       : GroupKind
  doorLinked : Bool
  trimmed    : Bool
  hold       : Nat
  rampRate   : Nat
deriving DecidableEq, Repr

inductive GroupState
  | disabled | lit | vacant | overridden
deriving DecidableEq, Repr

structure GroupOverride where
  level   : Nat
  seconds : Nat
deriving DecidableEq, Repr

/-- A lamp group's record (R128). `lastOccupancy` is the previous delivery of its occupancy line (R131). -/
structure Group where
  config        : GroupConfig
  state         : GroupState
  hold          : Option Nat
  override      : Option GroupOverride
  trim          : Nat
  desired       : Nat
  floorRequest  : Nat
  levelRequest  : Nat
  granted       : Nat
  output        : Nat
  lastOccupancy : Bool
deriving DecidableEq, Repr

/-- The daylight reading as last taken, with the settings it is used with (R136, R138). -/
structure Daylight where
  reading  : Reading
  luxStart : Nat
  gain     : Nat
deriving DecidableEq, Repr

/-- The Lighting Unit: `luxStart` and `gain` are the settings as written, `taken` what the last second boundary took. -/
structure Lighting where
  groups   : Table 24 Group
  luxStart : Nat
  gain     : Nat
  taken    : Daylight
deriving DecidableEq, Repr

/-! ### Line Unit -/

/-- The function a line serves (R149). The stages run from 1. -/
inductive Binding
  | doorContact (door : Fin 32)
  | trailer (door : Fin 32)
  | occupancy (group : Fin 24)
  | heat (zone : Fin 8) (stage : Nat)
  | fan (zone : Fin 8) (stage : Nat)
  | curtain (curtain : Fin 16)
  | spareIn
  | spareOut
deriving DecidableEq, Repr

/-- The stored part of a line's record (R149). -/
structure LineConfig where
  mode    : LineMode
  pullUp  : Bool
  invert  : Bool
  binding : Binding
deriving DecidableEq, Repr

/-- A line's record (R149), with `driven`, the level its point was last driven to, none while it is undriven (R147). -/
structure Line where
  config : LineConfig
  latch  : Bool
  driven : Option Bool
deriving DecidableEq, Repr

/-- A board position: whether a board answered the identification pass, its last good capture and bad-scan counts. -/
structure Board where
  present     : Bool
  captured    : Option Quad
  bad         : Nat
  consecutive : Nat
deriving DecidableEq, Repr

/-- The Line Unit. -/
structure Lines where
  lines   : Table 192 Line
  boards  : Table 6 Board
  dimmers : Table 24 Nat
deriving DecidableEq, Repr

/-! ### Settings Store -/

/-- The tables of the commissioning area (R171). -/
structure Commissioning where
  zones    : Table 8 ZoneConfig
  doors    : Table 32 DoorConfig
  curtains : Table 16 CurtainConfig
  nodes    : Table 16 NodeConfig
  map      : SourceMap
  ratings  : Ratings
  groups   : Table 24 GroupConfig
  lines    : Table 192 LineConfig
deriving DecidableEq, Repr

/-- The tables of the operating area (R171). -/
structure Operating where
  entries        : Table 24 CalEntry
  noClock        : Phase
  leadRate       : Nat
  params         : Table 6 PhaseParams
  scenes         : Table 6 (Table 24 Scene)
  busy           : Nat
  quiet          : Nat
  notices        : Bool
  stale          : Nat
  degrade        : Nat
  assumed        : Nat
  setting        : Nat
  g1             : Nat
  g2             : Nat
  g3             : Nat
  deviationLimit : Nat
  minOn          : Nat
  minOff         : Nat
  luxStart       : Nat
  gain           : Nat
  enables        : BitVec 10
deriving DecidableEq, Repr

/-- The stored copy of an area: erased, written with a check that agrees, or written with a check that does not
(R172). The contents of a spoiled copy are never loaded, so they are not held. -/
inductive Copy (α : Type)
  | erased
  | good (contents : α)
  | spoiled
deriving DecidableEq, Repr

inductive AreaStatus
  | valid | blank | damaged
deriving DecidableEq, Repr

/-- Why a save left an area DAMAGED (R174). -/
inductive DamageCause
  | key | check
deriving DecidableEq, Repr

inductive AreaResult
  | notRequested | valid | damaged (cause : DamageCause)
deriving DecidableEq, Repr

/-- The last save result (R174). -/
structure SaveResult where
  commissioning : AreaResult
  operating     : AreaResult
deriving DecidableEq, Repr

/-- A save in progress (R173, R174): the commissioning area is being written from its snapshot, with the operating
snapshot that follows it; or the operating area is being written, the commissioning outcome being known. -/
inductive Saving
  | commissioning (snapshot : Commissioning) (next : Option Operating)
  | operating (snapshot : Operating) (done : AreaResult)
deriving DecidableEq, Repr

/-- The Settings Store, with the level of the KEY pin as last seen. -/
structure Store where
  commCopy   : Copy Commissioning
  operCopy   : Copy Operating
  commStatus : AreaStatus
  operStatus : AreaStatus
  saving     : Option Saving
  lastResult : Option SaveResult
  key        : Bool
deriving DecidableEq, Repr

/-! ### Accounting Unit -/

structure ZoneAccount where
  heatSeconds : Nat
  fanSeconds  : Nat
  openings    : Nat
  openSeconds : Nat
deriving DecidableEq, Repr

/-- A shift summary (R178). -/
structure Summary where
  start        : Nat
  startRunning : Bool
  startPhase   : Phase
  zones        : Table 8 ZoneAccount
  peak         : Nat
  overcap      : Nat
  phaseSeconds : Table 6 Nat
  energy       : Nat
deriving DecidableEq, Repr

structure Accounts where
  current  : Summary
  previous : Option Summary
deriving DecidableEq, Repr

/-! ### Defaults -/

/-- The place of a phase in a table of the six (R5). -/
def phaseIndex : Phase → Fin 6
  | .setback => 0 | .preheat => 1 | .work => 2 | .breakTime => 3 | .changeover => 4 | .cleandown => 5

/-- The defaults of R5. -/
def CalEntry.default : CalEntry := ⟨false, 0, 0, .setback, false, 0⟩

/-- A phase parameter record with one setpoint for all zones and the phase cap 65,535 (R24). -/
def defaultParams (setpoint vent fallback longOpen : Nat) : PhaseParams :=
  ⟨Table.fill 8 setpoint, vent, fallback, longOpen, Config.max16⟩

/-- The default records of the six phases (R24). -/
def defaultPhases : Table 6 PhaseParams :=
  ⟨[defaultParams 90 0 1 5, defaultParams 116 0 2 10, defaultParams 116 1 2 20, defaultParams 112 1 1 10,
    defaultParams 116 1 2 30, defaultParams 104 2 1 10], rfl⟩

/-- The default scenes of the six phases (R26). -/
def defaultScenes : Table 6 (Table 24 Scene) :=
  ⟨[Table.fill 24 ⟨20, 10, 5⟩, Table.fill 24 ⟨60, 30, 10⟩, Table.fill 24 ⟨100, 60, 20⟩, Table.fill 24 ⟨70, 40, 20⟩,
    Table.fill 24 ⟨100, 70, 20⟩, Table.fill 24 ⟨100, 100, 30⟩], rfl⟩

/-- The default configuration of a door channel (R40). -/
def DoorConfig.default : DoorConfig := ⟨false, none, none, 8, 32, 0b1111⟩

/-- The default configuration of a curtain (R51). -/
def CurtainConfig.default : CurtainConfig := ⟨false, 0, 15⟩

/-- The default configuration of a node (R67). -/
def NodeConfig.default : NodeConfig := ⟨false, .temp, .reject⟩

/-- Every entry of the source map is *none* by default (R78). -/
def SourceMap.default : SourceMap := ⟨Table.fill 8 none, Table.fill 8 none, none, none⟩

/-- The default configuration of a zone (R82). -/
def ZoneConfig.default : ZoneConfig := ⟨0, 0, 4, 2, 64, 4, 0, 60, 150, 108, 124, 2, .off⟩

/-- Every rating is 0 by default (R110). -/
def Ratings.default : Ratings :=
  ⟨Table.fill 8 (Table.fill 4 0), Table.fill 8 0, Table.fill 16 0, Table.fill 24 0⟩

/-- The default configuration of a lamp group (R128). -/
def GroupConfig.default : GroupConfig := ⟨false, 0, .aisle, false, false, 15, 10⟩

/-- The default record of a line (R149). -/
def LineConfig.default : LineConfig := ⟨.input, true, false, .spareIn⟩

/-- The commissioning tables when the area is BLANK or DAMAGED. -/
def Commissioning.default : Commissioning :=
  ⟨Table.fill 8 .default, Table.fill 32 .default, Table.fill 16 .default, Table.fill 16 .default, .default, .default,
   Table.fill 24 .default, Table.fill 192 .default⟩

/-- The operating tables when the area is BLANK or DAMAGED (R5, R19, R24, R26, R59, R61, R77, R88, R96, R102, R113,
R137, R166). -/
def Operating.default : Operating where
  entries        := Table.fill 24 .default
  noClock        := .work
  leadRate       := 32
  params         := defaultPhases
  scenes         := defaultScenes
  busy           := 16
  quiet          := 4
  notices        := true
  stale          := 30
  degrade        := 120
  assumed        := 80
  setting        := 9
  g1             := 35
  g2             := 70
  g3             := 120
  deviationLimit := 0
  minOn          := 120
  minOff         := 60
  luxStart       := 2000
  gain           := 6
  enables        := 0b1111111111

/-- The dynamic part of a door channel after a reset (R40). -/
def Channel.initial (c : DoorConfig) : Channel :=
  ⟨c, .unused, false, false, none, none, 0, none, none, none, 0, 0, 0⟩

/-- A curtain after a reset: IDLE with no run-on remaining and no grant (R51). -/
def Curtain.initial (c : CurtainConfig) : Curtain := ⟨c, .idle, none, false⟩

/-- A ring after a reset (R49). -/
def Ring.initial : Ring := ⟨0, Table.fill 5 0⟩

/-- A node initialised (R67). -/
def Node.initial (c : NodeConfig) : Node :=
  ⟨c, none, if c.configured then .lost else .unconfigured, 0, 0⟩

/-- Working figures none of which was formed (R81). -/
def Working.absent : Working :=
  ⟨none, none, none, none, none, none, none, none, none, none, none, none, none, none, none, none, none⟩

/-- A zone's results after a reset (R81); also those of an OFF zone (R101). -/
def ZoneResults.initial : ZoneResults := ⟨none, 0, 0, 0, none, .absent⟩

/-- The allocator's record of a zone after a reset (R112, R127). -/
def ZoneGrant.initial : ZoneGrant := ⟨0, 0, Table.fill 4 0, 0, 0⟩

/-- A lamp group's record before its start-up event: DISABLED, dark and requesting nothing (R128, R130). -/
def Group.dark (c : GroupConfig) : Group := ⟨c, .disabled, none, none, 0, 0, 0, 0, 0, 0, false⟩

/-- A reading that is LOST (R80). -/
def Reading.lost : Reading := ⟨.lost, none⟩

/-- A board position after the identification pass and before any scan (R147, R148). -/
def Board.initial (present : Bool) : Board := ⟨present, none, 0, 0⟩

/-- A summary that begins now, every counter 0 (R178, R181). -/
def Summary.begin (start : Nat) (running : Bool) (phase : Phase) : Summary :=
  ⟨start, running, phase, Table.fill 8 ⟨0, 0, 0, 0⟩, 0, 0, Table.fill 6 0, 0⟩

end Sys2Proof.Machine
end

