-- ==== Sys2Proof/Machine/Operands.lean ====
section
/-! DEFINITION. The operand forms: how the numbers a command carries name records, what the calls' kinds are, how
written values are brought into range and order, how a sensor reply is checked and converted, and how calendar entries
are matched. Everything here is a function of its arguments alone. -/

namespace Sys2Proof.Machine

/-! ### Calls by kind -/

/-- The kind byte of each call, from the table of every call. -/
def kindCode : CallKind → Byte
  | .clockSet => 0x01 | .clockRead => 0x02 | .calWrite => 0x03 | .calRead => 0x04 | .calSettings => 0x05
  | .phaseRead => 0x06 | .phaseForce => 0x07 | .phaseExtend => 0x08 | .phaseRelease => 0x09
  | .phaseWrite => 0x10 | .sceneWrite => 0x11 | .stagedRead => 0x12 | .stagedDiscard => 0x13
  | .phaseTableRead => 0x14 | .sceneRead => 0x15
  | .doorConfig => 0x18 | .doorRead => 0x19 | .curtainConfig => 0x1A | .arrivalForecast => 0x1B
  | .doorqThresholds => 0x1C | .doorqNotices => 0x1D | .doorqRead => 0x1E | .doorqFlush => 0x1F
  | .nodeConfig => 0x20 | .nodeRead => 0x21 | .sourceMapWrite => 0x22 | .sensorLimits => 0x23
  | .zoneConfig => 0x28 | .zoneMode => 0x29 | .zoneManual => 0x2A | .cyclePeriod => 0x2B
  | .climateSettings => 0x2C | .zoneRead => 0x2D
  | .capSet => 0x30 | .capClear => 0x31 | .ratingsWrite => 0x32 | .stageTimes => 0x33 | .budgetRead => 0x34
  | .groupConfig => 0x38 | .lightSettings => 0x39 | .groupOverride => 0x3A | .groupRelease => 0x3B
  | .groupRead => 0x3C
  | .lineConfig => 0x40 | .lineDrive => 0x41 | .lineRead => 0x42
  | .ident => 0x48 | .flagsRead => 0x49 | .flagsClear => 0x4A | .flagsEnable => 0x4B
  | .storeSave => 0x50 | .storeStatus => 0x51 | .restart => 0x52
  | .shiftRead => 0x58

/-- Every known call. -/
def allKinds : List CallKind :=
  [.clockSet, .clockRead, .calWrite, .calRead, .calSettings, .phaseRead, .phaseForce, .phaseExtend, .phaseRelease,
   .phaseWrite, .sceneWrite, .stagedRead, .stagedDiscard, .phaseTableRead, .sceneRead, .doorConfig, .doorRead,
   .curtainConfig, .arrivalForecast, .doorqThresholds, .doorqNotices, .doorqRead, .doorqFlush, .nodeConfig, .nodeRead,
   .sourceMapWrite, .sensorLimits, .zoneConfig, .zoneMode, .zoneManual, .cyclePeriod, .climateSettings, .zoneRead,
   .capSet, .capClear, .ratingsWrite, .stageTimes, .budgetRead, .groupConfig, .lightSettings, .groupOverride,
   .groupRelease, .groupRead, .lineConfig, .lineDrive, .lineRead, .ident, .flagsRead, .flagsClear, .flagsEnable,
   .storeSave, .storeStatus, .restart, .shiftRead]

/-- The call a kind byte names (R162, step 1). -/
def kindOf (code : Byte) : Option CallKind := allKinds.find? (fun k => kindCode k == code)

/-- Whether a kind byte is a call's, known or not (R159). -/
def isCallCode (code : Byte) : Bool := 0x01 ≤ code.toNat && code.toNat ≤ 0x6F

/-- The panel's set of calls (R165). -/
def panelMay : CallKind → Bool
  | .phaseExtend | .groupOverride | .groupRelease | .phaseWrite | .sceneWrite | .phaseRead | .zoneRead | .groupRead
  | .doorRead | .shiftRead | .ident => true
  | _ => false

/-- Whether a call of this kind may be made on this link (R165). -/
def linkMay (k : CallKind) : Link → Bool
  | .supervisor => true
  | .panel => panelMay k

/-! ### Numbers that name records -/

/-- The row of a table of `n` that a byte names, none when it lies outside. -/
def row (n : Nat) (b : Byte) : Option (Fin n) := if h : b.toNat < n then some ⟨b.toNat, h⟩ else none

/-- The node a bus address 1..16 names. -/
def nodeRow (b : Byte) : Option (Fin 16) :=
  if h : 1 ≤ b.toNat ∧ b.toNat ≤ 16 then some ⟨b.toNat - 1, by omega⟩ else none

/-- The bus address of a node. -/
def address (n : Fin 16) : Byte := BitVec.ofNat 8 (n.val + 1)

/-- A field that may be *none*: `some none` for none, none for a number outside the table. -/
def rowOrNone (n : Nat) : Option Byte → Option (Option (Fin n))
  | none => some none
  | some b => (row n b).map some

/-! ### The shed clock -/

/-- The minute of week a week-second lies in (R1). -/
def minuteOfWeek (weekSecond : Nat) : Nat := weekSecond / 60
/-- The day, 0 for MON (R1). -/
def dayOf (weekSecond : Nat) : Nat := weekSecond / Config.daySeconds
/-- The minute of day (R1). -/
def minuteOfDay (weekSecond : Nat) : Nat := weekSecond % Config.daySeconds / 60
/-- The week-second `seconds` after `now`, wrapped past 604,799 (R15). -/
def endTime (now seconds : Nat) : Nat := (now + seconds) % Config.weekSeconds

/-! ### The calendar (R5, R11, R21, R22) -/

/-- An entry matches a minute of week (R5). -/
def CalEntry.matchesMinute (e : CalEntry) (minute : Nat) : Bool :=
  e.enabled && e.days.getLsbD (minute / Config.dayMinutes) && e.start == minute % Config.dayMinutes

/-- The entry that wins a minute of week: the matching entry of lowest index (R5). -/
def winner (entries : Table 24 CalEntry) (minute : Nat) : Option CalEntry :=
  entries.rows.find? (·.matchesMinute minute)

/-- The minute of week before `minute`, wrapping from 0 to 10,079 (R11). -/
def previousMinute (minute : Nat) : Nat := if minute = 0 then Config.weekMinutes - 1 else minute - 1

/-- The entry that wins the first matched minute, going back from `minute` through `n` minutes (R11). -/
def lookBack (entries : Table 24 CalEntry) : Nat → Nat → Option CalEntry
  | 0, _ => none
  | n + 1, minute =>
    match winner entries minute with
    | some e => some e
    | none => lookBack entries n (previousMinute minute)

/-- Whether any entry could match some minute: R11 names the two ways in which none does. -/
def anyLive (entries : Table 24 CalEntry) : Bool := entries.rows.any (fun e => e.enabled && e.days != 0)

/-- The scheduled phase at a minute of week (R11). -/
def lookup (entries : Table 24 CalEntry) (noClock : Phase) (minute : Nat) : Phase :=
  if anyLive entries then
    match lookBack entries Config.weekMinutes minute with
    | some e => e.phase
    | none => noClock
  else noClock

/-- The allowance of the entry that wins a minute when that is a WORK entry with a non-zero allowance (R21). -/
def targetAt (entries : Table 24 CalEntry) (minute : Nat) : Option Nat :=
  match winner entries minute with
  | some e => if e.phase = .work ∧ e.allowance ≠ 0 then some e.allowance else none
  | none => none

/-- The preheat target: its distance 1..120 ahead and its allowance (R21). -/
def leadTarget (entries : Table 24 CalEntry) (minute : Nat) : Option (Nat × Nat) :=
  (List.range 120).findSome? fun k =>
    (targetAt entries ((minute + (k + 1)) % Config.weekMinutes)).map (fun a => (k + 1, a))

/-- The required lead R (R22). -/
def requiredLead (allowance deficit leadRate : Nat) : Nat := min allowance (ceilDiv' (deficit * leadRate) 64)

/-- Whether the preheat lead would enter PREHEAT at this minute (R21, R22). -/
def leadHolds (entries : Table 24 CalEntry) (minute deficit leadRate : Nat) : Bool :=
  match leadTarget entries minute with
  | some (d, a) => d ≤ requiredLead a deficit leadRate
  | none => false

/-! ### Scenes and setpoints -/

/-- A supervisor's scene put into order (R27). -/
def orderScene (level vacant floor : Nat) : Scene :=
  let l := min 100 level
  let v := min 100 vacant
  let f := min 100 floor
  ⟨l, min v l, min f (min v l)⟩

/-- A panel's scene ordered against the floor it keeps (R38). -/
def orderPanelScene (level vacant floor : Nat) : Scene :=
  let l := max (min 100 level) floor
  let v := max (min 100 vacant) floor
  ⟨l, min v l, floor⟩

/-- A setpoint clamped into a zone's setpoint limits (R25). -/
def ZoneConfig.clampSetpoint (c : ZoneConfig) (code : Nat) : Nat := clampNat c.setpointLow c.setpointHigh code

/-- A panel's setpoint clamped into the zone's panel band (R37). -/
def ZoneConfig.clampBand (c : ZoneConfig) (code : Nat) : Nat := clampNat c.bandLow c.bandHigh code

/-- No field named. -/
def PhaseFields.empty : PhaseFields := ⟨Table.fill 8 none, none, none, none, none⟩

/-- One item of a field list added; a later item for the same field replaces an earlier one (R28). None when the item
names a zone above 7 or a field that does not exist. -/
def PhaseFields.add (f : PhaseFields) : PhaseItem → Option PhaseFields
  | .setpoint zone code => (row 8 zone).map fun z => { f with setpoints := f.setpoints.set z (some code.toNat) }
  | .ventMinimum v => some { f with vent := some v.toNat }
  | .fallback v => some { f with fallback := some v.toNat }
  | .longOpen v => some { f with longOpen := some v.toNat }
  | .phaseCap v => some { f with cap := some v.toNat }
  | .noSuchField => none

/-- The fields a list names, none when an item is refused (R28). -/
def PhaseFields.ofItems : List PhaseItem → PhaseFields → Option PhaseFields
  | [], f => some f
  | i :: rest, f => (f.add i).bind (PhaseFields.ofItems rest)

/-- Values out of range clamped; `limit z` is where zone `z`'s setpoint is moved (R28, R37). -/
def PhaseFields.clamp (f : PhaseFields) (limit : Fin 8 → Nat → Nat) : PhaseFields where
  setpoints := f.setpoints.mapIdx fun z v => v.map (limit z)
  vent      := f.vent.map (min 3)
  fallback  := f.fallback.map (min 4)
  longOpen  := f.longOpen.map (min 240)
  cap       := f.cap

/-- The setpoint items alone, as the panel's filter keeps them (R37). -/
def PhaseFields.setpointsOnly (f : PhaseFields) : PhaseFields := { PhaseFields.empty with setpoints := f.setpoints }

/-- Later fields merged over earlier ones (R32). -/
def PhaseFields.merge (earlier later : PhaseFields) : PhaseFields where
  setpoints := earlier.setpoints.mapIdx fun z v => (later.setpoints.get z).or v
  vent      := later.vent.or earlier.vent
  fallback  := later.fallback.or earlier.fallback
  longOpen  := later.longOpen.or earlier.longOpen
  cap       := later.cap.or earlier.cap

/-- Named fields written into a record, its other fields left as they were (R30). -/
def PhaseParams.write (p : PhaseParams) (f : PhaseFields) : PhaseParams where
  setpoints := p.setpoints.mapIdx fun z v => (f.setpoints.get z).getD v
  vent      := f.vent.getD p.vent
  fallback  := f.fallback.getD p.fallback
  longOpen  := f.longOpen.getD p.longOpen
  cap       := f.cap.getD p.cap

/-- The key of an edit (R31). -/
def Edit.key : Edit → EditKey
  | .entry i _ => .entry i
  | .params p _ => .params p
  | .scene p g _ _ _ => .scene p g

/-! ### The sensor bus -/

/-- One bit of a CRC-8 with polynomial x^8 + x^2 + x + 1 (R70). -/
def crc8Bit (c : BitVec 8) : BitVec 8 := if c.msb then (c <<< 1) ^^^ 0x07#8 else c <<< 1

/-- `n` bits of a CRC-8. -/
def crc8Bits : Nat → BitVec 8 → BitVec 8
  | 0, c => c
  | n + 1, c => crc8Bits n (crc8Bit c)

/-- The check of a bus frame over its field bytes (R70). PRESUMED: each byte most significant bit first, unreflected, with no
final inversion, the address and the type one byte each (assumption 43). -/
def crc8 (bytes : List Byte) : Byte := bytes.foldl (fun c b => crc8Bits 8 (c ^^^ b)) 0

/-- The field bytes of a reply, the value most significant half first (R70). -/
def replyFields (r : ReplyFrame) : List Byte :=
  [r.address, r.type, (r.value >>> 8).setWidth 8, r.value.setWidth 8]

/-- A reply's check is right (R70). -/
def checkRight (r : ReplyFrame) : Bool := r.check == crc8 (replyFields r)

/-- The poll frame naming a node: its address and check (R70). -/
def pollFrame (n : Fin 16) : List Byte := [address n, crc8 [address n]]

/-- The type code a reply carries (R70). -/
def typeCode : NodeType → Byte
  | .temp => 1 | .gas => 2 | .outdoor => 3 | .daylight => 4

/-- The value of an accepted reading converted by the node's type (R73). -/
def convertReading (t : NodeType) (value : Half) : Nat :=
  match t with
  | .temp | .outdoor => (clampInt 0 255 ((value.toInt + 402) / 5)).toNat
  | .gas => min 1000 value.toNat
  | .daylight => value.toNat

/-- The type a source map entry requires (R78). -/
def requiredType : SourceEntry → Option NodeType
  | .temperature _ => some .temp
  | .gas _ => some .gas
  | .outdoor => some .outdoor
  | .daylight => some .daylight
  | .noSuchEntry => none

/-! ### Frames -/

/-- One bit of a CRC-16 with polynomial x^16 + x^12 + x^5 + 1 (R159). -/
def crc16Bit (c : BitVec 16) : BitVec 16 := if c.msb then (c <<< 1) ^^^ 0x1021#16 else c <<< 1

/-- `n` bits of a CRC-16. -/
def crc16Bits : Nat → BitVec 16 → BitVec 16
  | 0, c => c
  | n + 1, c => crc16Bits n (crc16Bit c)

/-- The check of a frame over its length, kind, tag and body bytes (R159). -/
def crc16 (bytes : List Byte) : Half :=
  bytes.foldl (fun (c : Half) (b : Byte) => crc16Bits 8 (c ^^^ ((b.setWidth 16) <<< (8 : Nat)))) 0xFFFF#16

end Sys2Proof.Machine
end

