-- ==== Sys2Proof/Decode.lean ====
section
/-! DEFINITION. From bits to commands. The opcode table gives no row any bits, so `decodeTableWord` finds no command in
any word (assumption 31). What the manual does lay out in bytes is the frame of a call (R159): `received` reads a whole
frame as a link's receiver hands it on (R160, R162), total on any bytes. -/

namespace Sys2Proof

/-- The command a word spells by the table's bits: none, since no row of the table has bits. -/
def decodeTableWord (_nbits _w : Nat) : Option Instr := none

namespace Wire
open Sys2Proof.Machine (kindOf isCallCode crc16)

/-- A reader of a field: its value and the bytes after it, none when the bytes do not hold it. -/
abbrev Reader (α : Type) := List Byte → Option (α × List Byte)

/-- One byte. -/
def byte : Reader Byte
  | b :: rest => some (b, rest)
  | [] => none

/-- Two bytes, most significant first (R159). -/
def half : Reader Half
  | a :: b :: rest => some (a ++ b, rest)
  | _ => none

/-- Three bytes, most significant first (R159). -/
def tri : Reader Tri
  | a :: b :: c :: rest => some (a ++ b ++ c, rest)
  | _ => none

/-- *yes or no*, *on or off*: the first named is 0 (assumption 13). DESIGN CHOICE: with a byte other than 0 or 1 the body does
not hold the field, so the call is answered RANGE before its owner takes it (assumption 67). -/
def flag : Reader Bool
  | b :: rest => if b = 0 then some (true, rest) else if b = 1 then some (false, rest) else none
  | [] => none

/-- A field whose values are named, coded in the order given (R159). -/
def named {α : Type} (names : List α) : Reader (Named α)
  | b :: rest => some (names[b.toNat]?, rest)
  | [] => none

/-- A field that may be absent (R159). DESIGN CHOICE: with a presence byte other than 0 or 1 the body does not hold the field, so
the call is answered RANGE before its owner takes it (assumption 67). -/
def opt {α : Type} (p : Reader α) : Reader (Option α)
  | b :: rest =>
    if b = 0 then some (none, rest)
    else if b = 1 then (p rest).map fun x => (some x.1, x.2)
    else none
  | [] => none

/-- `n` items one after another. -/
def times {α : Type} (p : Reader α) : Nat → Reader (List α)
  | 0, bs => some ([], bs)
  | n + 1, bs => do
    let (a, bs) ← p bs
    let (as, bs) ← times p n bs
    some (a :: as, bs)

/-- A list preceded by its count (R159). -/
def list {α : Type} (p : Reader α) : Reader (List α)
  | n :: rest => times p n.toNat rest
  | [] => none

/-- A body that holds the fields read and nothing more (R162, step 3). -/
def whole {α : Type} (p : Reader α) (bs : List Byte) : Body α :=
  match p bs with
  | some (a, []) => some a
  | _ => none

/-- The six phases in the order of R5. -/
def phases : List Phase := [.setback, .preheat, .work, .breakTime, .changeover, .cleandown]

/-- The codes of the *mode* field of PHASE_WRITE and SCENE_WRITE: AT_ONCE 0 and STAGED 1, the order in which R28 and R29 list
them. -/
def modes : List WriteMode := [.atOnce, .staged]

/-- The codes of CAL_WRITE's *mode* field: STAGED 0 and AT_ONCE 1, the order in which R6, which owns the call, first names them.
DEDUCED: R6 describes the two modes in that order and gives no other list of them (assumption 55). -/
def calModes : List WriteMode := [.staged, .atOnce]

/-! ### Bodies, each field in the order the owning rule names it -/

def none' : Reader Unit := fun bs => some ((), bs)

def clockSet : Reader ClockSetArgs := fun b => do
  let (w, b) ← tri b
  some (⟨w⟩, b)

/-- DESIGN CHOICE: bit 7 of the days, which stands for none, is not read (assumption 67). -/
def calWrite : Reader CalWriteArgs := fun b => do
  let (index, b) ← byte b
  let (enabled, b) ← flag b
  let (days, b) ← byte b
  let (start, b) ← half b
  let (phase, b) ← named phases b
  let (shiftStart, b) ← flag b
  let (allowance, b) ← byte b
  let (mode, b) ← named calModes b
  some (⟨index, enabled, days.setWidth 7, start, phase, shiftStart, allowance, mode⟩, b)

def index : Reader IndexArgs := fun b => do
  let (i, b) ← byte b
  some (⟨i⟩, b)

def calSettings : Reader CalSettingsArgs := fun b => do
  let (noClock, b) ← opt (named phases) b
  let (leadRate, b) ← opt byte b
  some (⟨noClock, leadRate⟩, b)

def phaseForce : Reader PhaseForceArgs := fun b => do
  let (phase, b) ← named phases b
  let (minutes, b) ← half b
  some (⟨phase, minutes⟩, b)

def phaseExtend : Reader PhaseExtendArgs := fun b => do
  let (minutes, b) ← byte b
  some (⟨minutes⟩, b)

/-- One item of PHASE_WRITE: its field by its place in R24, its zone where it has one, and its value (assumption 13); a field
outside that list with nothing after it (DESIGN CHOICE, assumption 67). -/
def phaseItem : Reader PhaseItem := fun b => do
  let (code, b) ← byte b
  match code.toNat with
  | 0 =>
    let (z, b) ← byte b
    let (v, b) ← byte b
    some (.setpoint z v, b)
  | 1 =>
    let (v, b) ← byte b
    some (.ventMinimum v, b)
  | 2 =>
    let (v, b) ← byte b
    some (.fallback v, b)
  | 3 =>
    let (v, b) ← byte b
    some (.longOpen v, b)
  | 4 =>
    let (v, b) ← half b
    some (.phaseCap v, b)
  | _ => some (.noSuchField, b)

def phaseWrite : Reader PhaseWriteArgs := fun b => do
  let (phase, b) ← named phases b
  let (items, b) ← list phaseItem b
  let (mode, b) ← named modes b
  some (⟨phase, items, mode⟩, b)

def sceneWrite : Reader SceneWriteArgs := fun b => do
  let (phase, b) ← named phases b
  let (group, b) ← byte b
  let (level, b) ← byte b
  let (vacant, b) ← byte b
  let (floor, b) ← byte b
  let (mode, b) ← named modes b
  some (⟨phase, group, level, vacant, floor, mode⟩, b)

def phaseTableRead : Reader PhaseTableReadArgs := fun b => do
  let (phase, b) ← named phases b
  some (⟨phase⟩, b)

def sceneRead : Reader SceneReadArgs := fun b => do
  let (phase, b) ← named phases b
  let (group, b) ← byte b
  some (⟨phase, group⟩, b)

/-- A zone or curtain of *none* is read as a field that is absent (DESIGN CHOICE, assumption 61). Bits 4 to 7 of the
capture selection, which stand for no kind, are not read (DESIGN CHOICE, assumption 67). -/
def doorConfig : Reader DoorConfigArgs := fun b => do
  let (door, b) ← byte b
  let (configured, b) ← flag b
  let (zone, b) ← opt byte b
  let (curtain, b) ← opt byte b
  let (doorDebounce, b) ← byte b
  let (trailerDebounce, b) ← byte b
  let (capture, b) ← byte b
  some (⟨door, configured, zone, curtain, doorDebounce, trailerDebounce, capture.setWidth 4⟩, b)

def curtainConfig : Reader CurtainConfigArgs := fun b => do
  let (curtain, b) ← byte b
  let (configured, b) ← opt flag b
  let (zone, b) ← opt byte b
  let (runOn, b) ← opt byte b
  some (⟨curtain, configured, zone, runOn⟩, b)

def arrivalForecast : Reader ArrivalForecastArgs := fun b => do
  let (door, b) ← byte b
  let (within, b) ← byte b
  some (⟨door, within⟩, b)

def doorqThresholds : Reader DoorqThresholdsArgs := fun b => do
  let (busy, b) ← opt byte b
  let (quiet, b) ← opt byte b
  some (⟨busy, quiet⟩, b)

def onOff : Reader OnOffArgs := fun b => do
  let (on, b) ← flag b
  some (⟨on⟩, b)

def doorqRead : Reader DoorqReadArgs := fun b => do
  let (count, b) ← byte b
  some (⟨count⟩, b)

def nodeConfig : Reader NodeConfigArgs := fun b => do
  let (node, b) ← byte b
  let (configured, b) ← opt flag b
  let (type, b) ← opt (named [NodeType.temp, .gas, .outdoor, .daylight]) b
  let (filter, b) ← opt (named [CheckFilter.reject, .accept]) b
  some (⟨node, configured, type, filter⟩, b)

/-- The entry an item of SOURCE_MAP_WRITE names, by its place in R78 and its zone where it has one (assumption 13); an
entry outside that table with no zone (DESIGN CHOICE, assumption 67). -/
def sourceEntry : Reader SourceEntry := fun b => do
  let (code, b) ← byte b
  match code.toNat with
  | 0 =>
    let (z, b) ← byte b
    some (.temperature z, b)
  | 1 =>
    let (z, b) ← byte b
    some (.gas z, b)
  | 2 => some (.outdoor, b)
  | 3 => some (.daylight, b)
  | _ => some (.noSuchEntry, b)

/-- A node of *none* is read as a field that is absent (DESIGN CHOICE, assumption 61). -/
def sourceMap : Reader SourceMapArgs := fun b => do
  let (items, b) ← list (fun b => do
    let (entry, b) ← sourceEntry b
    let (node, b) ← opt byte b
    some ((⟨entry, node⟩ : SourceItem), b)) b
  some (⟨items⟩, b)

/-- SENSOR_LIMITS. DESIGN CHOICE: the stale limit is read from the one byte that holds its range 5..255 (R159), although R77
speaks of a stale limit above 255 (assumption 52). -/
def sensorLimits : Reader SensorLimitsArgs := fun b => do
  let (stale, b) ← opt byte b
  let (degrade, b) ← opt half b
  let (assumed, b) ← opt byte b
  some (⟨stale.map (·.setWidth 16), degrade, assumed⟩, b)

def zoneConfig : Reader ZoneConfigArgs := fun b => do
  let (zone, b) ← byte b
  let (heaterStages, b) ← byte b
  let (fanStages, b) ← byte b
  let (step, b) ← byte b
  let (hysteresis, b) ← byte b
  let (doorCoefficient, b) ← byte b
  let (makeUp, b) ← byte b
  let (boost, b) ← byte b
  let (setpointLow, b) ← byte b
  let (setpointHigh, b) ← byte b
  let (bandLow, b) ← byte b
  let (bandHigh, b) ← byte b
  let (trailersPerStage, b) ← byte b
  let (startMode, b) ← named [StartMode.off, .auto] b
  some (⟨zone, heaterStages, fanStages, step, hysteresis, doorCoefficient, makeUp, boost, setpointLow, setpointHigh,
    bandLow, bandHigh, trailersPerStage, startMode⟩, b)

/-- The mode's codes are those of R84's list, OFF, AUTO, MANUAL, with DEGRADED, which R84 names after them, last
(assumption 60). -/
def zoneMode : Reader ZoneModeArgs := fun b => do
  let (zone, b) ← byte b
  let (mode, b) ← named [ZoneMode.off, .auto, .manual, .degraded] b
  some (⟨zone, mode⟩, b)

def zoneManual : Reader ZoneManualArgs := fun b => do
  let (zone, b) ← byte b
  let (heat, b) ← byte b
  let (fans, b) ← byte b
  some (⟨zone, heat, fans⟩, b)

def cyclePeriod : Reader CyclePeriodArgs := fun b => do
  let (setting, b) ← opt byte b
  some (⟨setting⟩, b)

def climateSettings : Reader ClimateSettingsArgs := fun b => do
  let (g1, b) ← opt half b
  let (g2, b) ← opt half b
  let (g3, b) ← opt half b
  let (limit, b) ← opt half b
  some (⟨g1, g2, g3, limit⟩, b)

def capSet : Reader CapSetArgs := fun b => do
  let (units, b) ← half b
  let (minutes, b) ← half b
  some (⟨units, minutes⟩, b)

/-- One item of RATINGS_WRITE: its rating by its place in R110, what it belongs to, and its value (assumption 13); a rating
outside that table with nothing after it (DESIGN CHOICE, assumption 67). -/
def ratingItem : Reader RatingItem := fun b => do
  let (code, b) ← byte b
  match code.toNat with
  | 0 =>
    let (z, b) ← byte b
    let (i, b) ← byte b
    let (v, b) ← half b
    some (.heater z i v, b)
  | 1 =>
    let (z, b) ← byte b
    let (v, b) ← half b
    some (.fan z v, b)
  | 2 =>
    let (c, b) ← byte b
    let (v, b) ← half b
    some (.curtain c v, b)
  | 3 =>
    let (g, b) ← byte b
    let (v, b) ← half b
    some (.group g v, b)
  | _ => some (.noSuchRating, b)

def ratingsWrite : Reader RatingsArgs := fun b => do
  let (items, b) ← list ratingItem b
  some (⟨items⟩, b)

def stageTimes : Reader StageTimesArgs := fun b => do
  let (on, b) ← opt half b
  let (off, b) ← opt half b
  some (⟨on, off⟩, b)

def groupConfig : Reader GroupConfigArgs := fun b => do
  let (group, b) ← byte b
  let (enabled, b) ← flag b
  let (zone, b) ← byte b
  let (kind, b) ← named [GroupKind.aisle, .dock, .yard] b
  let (doorLinked, b) ← flag b
  let (trimmed, b) ← flag b
  let (hold, b) ← byte b
  let (rampRate, b) ← byte b
  some (⟨group, enabled, zone, kind, doorLinked, trimmed, hold, rampRate⟩, b)

def lightSettings : Reader LightSettingsArgs := fun b => do
  let (luxStart, b) ← opt half b
  let (gain, b) ← opt byte b
  some (⟨luxStart, gain⟩, b)

def groupOverride : Reader GroupOverrideArgs := fun b => do
  let (group, b) ← byte b
  let (level, b) ← byte b
  let (minutes, b) ← byte b
  some (⟨group, level, minutes⟩, b)

/-- A binding: its function by its place in R149, then its arguments (R159); a function outside that list with none (DESIGN
CHOICE, assumption 67). -/
def binding : Reader RawBinding := fun b => do
  let (code, b) ← byte b
  match code.toNat with
  | 0 =>
    let (d, b) ← byte b
    some (.doorContact d, b)
  | 1 =>
    let (d, b) ← byte b
    some (.trailer d, b)
  | 2 =>
    let (g, b) ← byte b
    some (.occupancy g, b)
  | 3 =>
    let (z, b) ← byte b
    let (i, b) ← byte b
    some (.heat z i, b)
  | 4 =>
    let (z, b) ← byte b
    let (i, b) ← byte b
    some (.fan z i, b)
  | 5 =>
    let (c, b) ← byte b
    some (.curtain c, b)
  | 6 => some (.spareIn, b)
  | 7 => some (.spareOut, b)
  | _ => some (.noSuchFunction, b)

def lineConfig : Reader LineConfigArgs := fun b => do
  let (line, b) ← byte b
  let (mode, b) ← named [LineMode.input, .output] b
  let (pullUp, b) ← flag b
  let (invert, b) ← flag b
  let (bound, b) ← binding b
  some (⟨line, mode, pullUp, invert, bound⟩, b)

def lineDrive : Reader LineDriveArgs := fun b => do
  let (line, b) ← byte b
  let (on, b) ← flag b
  some (⟨line, on⟩, b)

/-- DESIGN CHOICE: bits 10 to 15, which stand for no flag, are not read (assumption 67). -/
def flagSet : Reader FlagSetArgs := fun b => do
  let (flags, b) ← half b
  some (⟨flags.setWidth 10⟩, b)

def storeSave : Reader StoreSaveArgs := fun b => do
  let (areas, b) ← byte b
  some (⟨areas.getLsbD 0, areas.getLsbD 1⟩, b)

def restart : Reader RestartArgs := fun b => do
  let (keep, b) ← flag b
  some (⟨keep⟩, b)

def shiftRead : Reader ShiftReadArgs := fun b => do
  let (which, b) ← named [WhichShift.current, .previous] b
  some (⟨which⟩, b)

/-- The command of a known call with these body bytes; `key` is the level of KEY as the call is taken. -/
def call (o : Origin) (key : Bool) (b : List Byte) : CallKind → Instr
  | .clockSet => .clockSet o (whole clockSet b)
  | .clockRead => .clockRead o (whole none' b)
  | .calWrite => .calWrite o (whole calWrite b)
  | .calRead => .calRead o (whole index b)
  | .calSettings => .calSettings o (whole calSettings b)
  | .phaseRead => .phaseRead o (whole none' b)
  | .phaseForce => .phaseForce o (whole phaseForce b)
  | .phaseExtend => .phaseExtend o (whole phaseExtend b)
  | .phaseRelease => .phaseRelease o (whole none' b)
  | .phaseWrite => .phaseWrite o (whole phaseWrite b)
  | .sceneWrite => .sceneWrite o (whole sceneWrite b)
  | .stagedRead => .stagedRead o (whole index b)
  | .stagedDiscard => .stagedDiscard o (whole none' b)
  | .phaseTableRead => .phaseTableRead o (whole phaseTableRead b)
  | .sceneRead => .sceneRead o (whole sceneRead b)
  | .doorConfig => .doorConfig o (whole doorConfig b)
  | .doorRead => .doorRead o (whole index b)
  | .curtainConfig => .curtainConfig o (whole curtainConfig b)
  | .arrivalForecast => .arrivalForecast o (whole arrivalForecast b)
  | .doorqThresholds => .doorqThresholds o (whole doorqThresholds b)
  | .doorqNotices => .doorqNotices o (whole onOff b)
  | .doorqRead => .doorqRead o (whole doorqRead b)
  | .doorqFlush => .doorqFlush o (whole none' b)
  | .nodeConfig => .nodeConfig o (whole nodeConfig b)
  | .nodeRead => .nodeRead o (whole index b)
  | .sourceMapWrite => .sourceMapWrite o (whole sourceMap b)
  | .sensorLimits => .sensorLimits o (whole sensorLimits b)
  | .zoneConfig => .zoneConfig o (whole zoneConfig b)
  | .zoneMode => .zoneMode o (whole zoneMode b)
  | .zoneManual => .zoneManual o (whole zoneManual b)
  | .cyclePeriod => .cyclePeriod o (whole cyclePeriod b)
  | .climateSettings => .climateSettings o (whole climateSettings b)
  | .zoneRead => .zoneRead o (whole index b)
  | .capSet => .capSet o (whole capSet b)
  | .capClear => .capClear o (whole none' b)
  | .ratingsWrite => .ratingsWrite o (whole ratingsWrite b)
  | .stageTimes => .stageTimes o (whole stageTimes b)
  | .budgetRead => .budgetRead o (whole none' b)
  | .groupConfig => .groupConfig o (whole groupConfig b)
  | .lightSettings => .lightSettings o (whole lightSettings b)
  | .groupOverride => .groupOverride o (whole groupOverride b)
  | .groupRelease => .groupRelease o (whole index b)
  | .groupRead => .groupRead o (whole index b)
  | .lineConfig => .lineConfig o (whole lineConfig b)
  | .lineDrive => .lineDrive o (whole lineDrive b)
  | .lineRead => .lineRead o (whole index b)
  | .ident => .ident o (whole none' b)
  | .flagsRead => .flagsRead o (whole none' b)
  | .flagsClear => .flagsClear o (whole flagSet b)
  | .flagsEnable => .flagsEnable o (whole flagSet b)
  | .storeSave => .storeSave o (whole storeSave b) key
  | .storeStatus => .storeStatus o (whole none' b) key
  | .restart => .restart o (whole restart b)
  | .shiftRead => .shiftRead o (whole shiftRead b)

/-- The bytes after the start byte cut where the length says: kind, tag, body, and the two check bytes (R159). None
when they are not exactly that many. -/
def cut (n : Nat) (bs : List Byte) : Option (Byte × Byte × List Byte × Half) :=
  match bs with
  | kind :: tag :: rest =>
    match rest.drop n with
    | [a, b] => some (kind, tag, rest.take n, a ++ b)
    | _ => none
  | _ => none

/-- The command a whole frame makes on a link (R160, R162); none when the bytes are not one whole frame. -/
def received (l : Link) (key : Bool) : List Byte → Option Instr
  | start :: length :: rest =>
    if start ≠ 0x7E then none
    else if Config.bodyBytes < length.toNat then some (.frameDiscarded l .badLength)
    else
      (cut length.toNat rest).map fun (kind, tag, body, check) =>
        if check ≠ crc16 ([length, kind, tag] ++ body) then .frameDiscarded l .badCheck
        else if isCallCode kind = false then .frameDiscarded l .notACall
        else
          match kindOf kind with
          | none => .unknownCall ⟨l, tag⟩ kind
          | some k => call ⟨l, tag⟩ key body k
  | _ => none

end Wire

end Sys2Proof
end

