-- ==== Sys2Proof/Machine/Messages.lean ====
section
/-! DEFINITION. What travels on the links: statuses, attention flags, the contents of answers and notices as their
owning rules name them, and the frames of an outbound queue (R159 to R168). -/

namespace Sys2Proof.Machine

/-- The statuses of R164, in the order of their codes. -/
inductive Status
  | ok | clamped | partially | dropped | busy | full | locked | active | range | level | wrongPhase | overridden
  | unknown
deriving DecidableEq, Repr

/-- The ten attention flags, in the order of R166. -/
inductive Flag
  | clockUnset | phaseChanged | doorHeld | queueOverrun | sensorLost | busSilent | zoneDegraded | overcap | deviation
  | storeDamaged
deriving DecidableEq, Repr

/-- The fields of the PHASE notice and of PHASE_READ (R10). -/
structure PhaseReport where
  phase       : Phase
  source      : Source
  entered     : Nat
  overrideEnd : Option Nat
  scheduled   : Phase
deriving DecidableEq, Repr

/-- What DOOR_READ adds to the channel (R65): the forecast's seconds and window end, the curtain's state and grant. -/
structure DoorReport where
  channel  : Channel
  forecast : Option (Nat × Nat)
  curtain  : Option (CurtainState × Bool)
deriving DecidableEq, Repr

/-- A source map entry as NODE_READ lists it (R69). -/
inductive SourceName
  | temperature (zone : Fin 8)
  | gas (zone : Fin 8)
  | outdoor
  | daylight
deriving DecidableEq, Repr

/-- ZONE_READ's answer (R105). -/
structure ZoneReport where
  zone      : Zone
  deviation : Nat
  deficit   : Nat
  timer     : Nat
  period    : Nat
  cycles    : Nat
deriving DecidableEq, Repr

/-- The grant table with its totals (R127). -/
structure GrantReport where
  heat      : Table 8 Nat
  fans      : Table 8 Nat
  curtains  : Table 16 Bool
  levels    : Table 24 Nat
  reserved  : Nat
  total     : Nat
  headroom  : Int
  capInForce : Nat
  passes    : Nat
deriving DecidableEq, Repr

/-- The supervisor cap as BUDGET_READ reports it: its units and its end when it has one (R127). -/
structure CapReport where
  units  : Nat
  capEnd : Option Nat
deriving DecidableEq, Repr

/-- BUDGET_READ's answer (R127): for each heater stage, whether it is on and its time since change; for each group,
its floor requested and desired level requested. -/
structure BudgetReport where
  grants   : GrantReport
  phaseCap : Nat
  supCap   : Option CapReport
  demand   : Option (Table 8 ZoneDemand)
  stages   : Table 8 (Table 4 (Bool × Nat))
  requests : Table 24 (Nat × Nat)
deriving DecidableEq, Repr

/-- GROUP_READ's answer (R146). -/
structure GroupReport where
  group       : Group
  scene       : Scene
  base        : Option Nat
  overrideEnd : Option Nat
  daylight    : NodeStatus
deriving DecidableEq, Repr

/-- LINE_READ's answer (R155). -/
structure LineReport where
  config      : LineConfig
  latch       : Bool
  high        : Bool
  active      : Bool
  present     : Bool
  stranded    : Bool
  bad         : Nat
  consecutive : Nat
deriving DecidableEq, Repr

/-- The save state, with the area being written while SAVING, and the status of each area (R169, R175). -/
structure StoreReport where
  writing    : Option Area
  commStatus : AreaStatus
  operStatus : AreaStatus
deriving DecidableEq, Repr

/-- A summary with its duration and its energy as reported (R178, R179, R182). -/
structure SummaryReport where
  summary  : Summary
  duration : Nat
  energy   : Nat
deriving DecidableEq, Repr

/-- The answer fields that follow the status, as the call's owning rule names them (R164). -/
inductive AnswerFields
  | bare
  | clock (weekSecond tick day minute : Nat) (running : Bool)
  | calEntry (index : Fin 24) (entry : CalEntry) (staged : Bool)
  | calStored (index : Fin 24) (entry : CalEntry)
  | calSettings (noClock : Phase) (leadRate : Nat)
  | phase (report : PhaseReport) (running : Bool)
  | overrideEnd (endTime : Option Nat)
  | extendedEnd (endTime : Nat)
  | phaseFields (fields : PhaseFields)
  | scene (scene : Scene)
  | panelScene (level vacant : Nat)
  | staged (count : Nat) (edits : List (Nat × StagedEdit))
  | discarded (count : Nat)
  | phaseTable (params : PhaseParams) (staged : Bool)
  | sceneRead (scene : Scene) (staged : Bool)
  | doorConfig (config : DoorConfig)
  | door (report : DoorReport)
  | curtain (curtain : Curtain)
  | windowEnd (endTime : Nat)
  | thresholds (busy quiet : Nat)
  | doorRecords (records : List DoorRecord) (left : Nat)
  | node (node : Node)
  | nodeRead (node : Node) (entries : List SourceName)
  | sourceMap (map : SourceMap)
  | sensorLimits (stale degrade assumed : Nat)
  | zoneConfig (config : ZoneConfig)
  | zoneMode (mode : ZoneMode)
  | zoneManual (heat fans : Nat)
  | cycle (setting timer : Nat)
  | climate (g1 g2 g3 deviationLimit : Nat)
  | zone (report : ZoneReport)
  | capSet (units capInForce : Nat) (endTime : Option Nat)
  | capClear (capInForce : Nat)
  | ratings (ratings : Ratings)
  | stageTimes (minOn minOff : Nat)
  | budget (report : BudgetReport)
  | groupConfig (config : GroupConfig)
  | light (luxStart gain : Nat)
  | groupOverride (level endTime : Nat)
  | group (report : GroupReport)
  | line (config : LineConfig) (latch : Bool)
  | latch (on : Bool)
  | lineRead (report : LineReport)
  | ident (vendor part : Nat) (revision : Char) (boards : Table 6 Bool) (store : StoreReport)
  | flags (set enables : BitVec 10)
  | store (store : StoreReport) (last : Option SaveResult) (key : Bool)
  | shift (summary : Option SummaryReport)
deriving DecidableEq, Repr

/-- What an answer says: its status and the fields that follow it. -/
structure Reply where
  status : Status
  fields : AnswerFields
deriving DecidableEq, Repr

/-- The five notices (R168). -/
inductive Notice
  | attention (flag : Flag) (set enables : BitVec 10)
  | phase (report : PhaseReport)
  | doorBatch (part parts : Nat) (records : List DoorRecord)
  | shiftSummary (report : SummaryReport)
  | storeResult (result : SaveResult)
deriving DecidableEq, Repr

inductive Content
  | answer (reply : Reply)
  | notice (notice : Notice)
deriving DecidableEq, Repr

/-- A frame of an outbound queue: kind, tag and content (R159). -/
structure Frame where
  kind    : Byte
  tag     : Byte
  content : Content
deriving DecidableEq, Repr

end Sys2Proof.Machine
end

