-- ==== Sys2Proof/Machine/State.lean ====
section
/-! DEFINITION. The whole state of the DT-240, block by block, the reasons a step can stop, and the state right after
power-on of a part that has never been commissioned. -/

namespace Sys2Proof.Machine

/-- The DT-240 has no fault: every command of the table has an effect the manual gives, so no meaning ends in one.
The type has no constructor. -/
inductive Fault
deriving DecidableEq, Repr

/-- The reasons a command is refused without a meaning. -/
inductive Refusal
  /-- Raised by `exec` alone, for a command that has no meaning in the model yet. Safe: the model stops where the part
  would go on. -/
  | notModelled (mnemonic : String)
deriving DecidableEq, Repr

/-- Whether the part runs: RESET high and supply present; held by a low RESET pin (R157); or without supply (R176). -/
inductive Power
  | running | resetHeld | unsupplied
deriving DecidableEq, Repr

/-- A link receiver's state (R160). -/
inductive Receiver
  | hunting | receiving
deriving DecidableEq, Repr

/-- One link: its receiver, its hold state, its outbound queue, oldest frame first, and whether the transmitter is
sending the oldest frame (R158, R161, R163). -/
structure LinkState where
  receiver : Receiver
  held     : Bool
  sending  : Bool
  queue    : List Frame
deriving DecidableEq, Repr

/-- A RESTART accepted and not yet in effect (R170): the keep clock field, the link its answer went to, and whether the
answer found room in that link's queue. -/
structure RestartPending where
  keepClock : Bool
  link      : Link
  queued    : Bool
deriving DecidableEq, Repr

/-- The Link Interface: both links, the attention flags and their enables (bit `i` the `i`-th flag of R166). -/
structure LinkInterface where
  supervisor : LinkState
  panel      : LinkState
  flags      : BitVec 10
  enables    : BitVec 10
  restart    : Option RestartPending
deriving DecidableEq, Repr

/-- A record that takes each second boundary as an event of its own, where that event may be one the opcode table
names: the phase override, the supervisor cap, the cycle timer, the Lighting Unit as a whole (R138), a door channel, a
curtain, a door's forecast entry, a node, and a zone's stage timers. -/
inductive SecondOf
  | override | cap | cycle | lighting
  | door (door : Fin 32)
  | curtain (curtain : Fin 16)
  | forecast (door : Fin 32)
  | node (node : Fin 16)
  | stages (zone : Fin 8)
deriving DecidableEq, Repr

/-- The state of the part. `owed` and `pending` are the model's own: the records that have not yet taken the latest
second boundary (assumption 1), and the commands that wait, first in first out. -/
structure State where
  power    : Power
  clock    : Clock
  calendar : Calendar
  doors    : Doors
  sensors  : Sensors
  climate  : Climate
  budget   : Allocator
  lighting : Lighting
  lines    : Lines
  store    : Store
  accounts : Accounts
  links    : LinkInterface
  owed     : List SecondOf
  pending  : List Instr
deriving DecidableEq, Repr

/-- A link after a reset: hunting, released, its queue empty (R158). -/
def LinkState.initial : LinkState := ⟨.hunting, false, false, []⟩

/-- The ATTENTION notice that reports CLOCK_UNSET as the first frame after power-on, every flag enabled (R166). -/
def clockUnsetNotice : Frame := ⟨0xF0, 0, .notice (.attention .clockUnset 1 0b1111111111)⟩

/-- The machine right after power-on with both store areas BLANK, no extender board fitted and KEY low
(assumption 8). Every value is the manual's for power-on: the clock UNSET with CLOCK_UNSET set and reported (R2, R166),
the no-clock phase WORK in force with source NO_CLOCK (R8), every table at its defaults (R176). -/
def State.reset : State where
  power := .running
  clock := ⟨0, 0, false⟩
  calendar :=
    { entries := Table.fill 24 .default, noClock := .work, leadRate := 32,
      record := ⟨.work, .noClock, 0, none⟩, staging := [], params := defaultPhases, scenes := defaultScenes }
  doors :=
    { channels := Table.fill 32 (.initial .default), curtains := Table.fill 16 (.initial .default),
      rings := Table.fill 8 .initial, forecasts := [], queue := [], busy := 16, quiet := 4, notices := true }
  sensors :=
    { nodes := Table.fill 16 (.initial .default), map := .default, stale := 30, degrade := 120, assumed := 80,
      polled := none, roundMark := false }
  climate :=
    { zones := Table.fill 8 ⟨.default, .off, 0, 0, .initial⟩, timer := 0, setting := 9, cycles := 0, g1 := 35, g2 := 70,
      g3 := 120, deviationLimit := 0, deviation := 0, deficit := 0 }
  budget :=
    { phaseCap := 65535, supCap := none, ratings := .default, minOn := 120, minOff := 60,
      zones := Table.fill 8 .initial, groups := Table.fill 24 ⟨0, 0, 0⟩, demand := none, reserved := 0, total := 0,
      passes := 0 }
  lighting :=
    { groups := Table.fill 24 (.dark .default), luxStart := 2000, gain := 6, taken := ⟨.lost, 2000, 6⟩ }
  lines :=
    { lines := Table.fill 192 ⟨.default, false, none⟩, boards := Table.fill 6 (.initial false),
      dimmers := Table.fill 24 0 }
  store :=
    { commCopy := .erased, operCopy := .erased, commStatus := .blank, operStatus := .blank, saving := none,
      lastResult := none, key := false }
  accounts := ⟨.begin 0 false .work, none⟩
  links :=
    { supervisor := ⟨.hunting, false, true, [clockUnsetNotice]⟩, panel := .initial, flags := 1,
      enables := 0b1111111111, restart := none }
  owed := []
  pending := []

end Sys2Proof.Machine
end

