-- ==== Sys2Proof/Machine/Flags.lean ====
section
/-! DEFINITION. The attention flags, their set events and the outbound queues that carry the notices (R163, R166). -/

namespace Sys2Proof.Machine

/-- The place of a flag in a flag set: the order of R166, first flag in the least significant bit (R159). -/
def flagIndex : Flag → Nat
  | .clockUnset => 0 | .phaseChanged => 1 | .doorHeld => 2 | .queueOverrun => 3 | .sensorLost => 4 | .busSilent => 5
  | .zoneDegraded => 6 | .overcap => 7 | .deviation => 8 | .storeDamaged => 9

/-- The set that holds one flag. -/
def flagBit (f : Flag) : BitVec 10 := 1#10 <<< flagIndex f

/-- The code of a status (R164). -/
def statusCode : Status → Nat
  | .ok => 0 | .clamped => 1 | .partially => 2 | .dropped => 3 | .busy => 4 | .full => 5 | .locked => 6 | .active => 7
  | .range => 8 | .level => 9 | .wrongPhase => 10 | .overridden => 11 | .unknown => 12

/-- The kind of a notice (R168). -/
def noticeKind : Notice → Byte
  | .attention .. => 0xF0
  | .phase .. => 0xF1
  | .doorBatch .. => 0xF2
  | .shiftSummary .. => 0xF3
  | .storeResult .. => 0xF4

/-- A notice's frame, tag 0 (R159, R168). -/
def noticeFrame (n : Notice) : Frame := ⟨noticeKind n, 0, .notice n⟩

/-- A link of a Link Interface. -/
def LinkInterface.link (i : LinkInterface) : Link → LinkState
  | .supervisor => i.supervisor
  | .panel => i.panel

/-- A Link Interface with one link replaced; the other link is untouched (R158). -/
def LinkInterface.setLink (i : LinkInterface) (l : Link) (x : LinkState) : LinkInterface :=
  match l with
  | .supervisor => { i with supervisor := x }
  | .panel => { i with panel := x }

/-- How many more frames a link's outbound queue takes (R163). -/
def LinkState.room (x : LinkState) : Nat := Config.queueFrames - x.queue.length

/-- A frame offered to an outbound queue: it joins the end while the queue holds fewer than 8, and is lost otherwise
(R163). A released link sends its oldest frame at once (R161). -/
def LinkState.offer (x : LinkState) (f : Frame) : LinkState :=
  if x.queue.length < Config.queueFrames then { x with queue := x.queue ++ [f], sending := x.sending || !x.held } else x

/-- Frames offered one after another. -/
def LinkState.offerAll (x : LinkState) (fs : List Frame) : LinkState := fs.foldl LinkState.offer x

/-- A frame offered on a link. -/
def LinkInterface.offer (i : LinkInterface) (l : Link) (f : Frame) : LinkInterface :=
  i.setLink l ((i.link l).offer f)

/-- A notice offered on a link; not sent once a RESTART is accepted (R163, R170). -/
def LinkInterface.notify (i : LinkInterface) (l : Link) (n : Notice) : LinkInterface :=
  if i.restart.isSome then i else i.offer l (noticeFrame n)

/-- Whether a flag is set. -/
def LinkInterface.isSet (i : LinkInterface) (f : Flag) : Bool := i.flags.getLsbD (flagIndex f)

/-- Whether a flag's enable is on. -/
def LinkInterface.isEnabled (i : LinkInterface) (f : Flag) : Bool := i.enables.getLsbD (flagIndex f)

/-- A set event taken by the Link Interface (R166): a clear flag is set and, when enabled, an ATTENTION notice with the
whole set of flags now set is offered to the supervisor link; a set flag changes nothing. -/
def LinkInterface.raise (i : LinkInterface) (f : Flag) : LinkInterface :=
  if i.isSet f then i
  else
    let j := { i with flags := i.flags ||| flagBit f }
    if j.isEnabled f then j.notify .supervisor (.attention f j.flags j.enables) else j

/-- A set event delivered to the Link Interface. -/
def State.raise (s : State) (f : Flag) : State := { s with links := s.links.raise f }

/-- A set event delivered when a condition holds. -/
def State.raiseIf (s : State) (c : Bool) (f : Flag) : State := if c then s.raise f else s

/-- A notice offered on a link. -/
def State.notify (s : State) (l : Link) (n : Notice) : State := { s with links := s.links.notify l n }

end Sys2Proof.Machine
end

