-- ==== Sys2Proof/Machine/Ops.lean ====
section
/-! DEFINITION. The operations every command is built of: reading the phase in force and its tables, doing a thing for
every row of a table, taking a call and answering it (R162), and running a command only while the part runs. -/

namespace Sys2Proof.Machine

/-- The outcome of a step. -/
abbrev Result := Host.Outcome State Fault Refusal

/-! ### What is in force -/

/-- The phase in force (R8). -/
def State.phase (s : State) : Phase := s.calendar.record.phase

/-- The phase parameter record of a phase (R24). -/
def State.paramsOf (s : State) (p : Phase) : PhaseParams := s.calendar.params.get (phaseIndex p)

/-- The scene of a phase and group (R26). -/
def State.sceneOf (s : State) (p : Phase) (g : Fin 24) : Scene := (s.calendar.scenes.get (phaseIndex p)).get g

/-- The scene of a group in the phase in force. -/
def State.scene (s : State) (g : Fin 24) : Scene := s.sceneOf s.phase g

/-- The present week-second. -/
def State.now (s : State) : Nat := s.clock.weekSecond

/-- The present minute of week. -/
def State.minute (s : State) : Nat := minuteOfWeek s.clock.weekSecond

/-- The mode of a zone (R83). -/
def State.zoneMode (s : State) (z : Fin 8) : ZoneMode := (s.climate.zones.get z).mode

/-- WORK and CHANGEOVER form the busy class (R24). -/
def busyClass : Phase → Bool
  | .work | .changeover => true
  | _ => false

/-- Do `f` for every row of a table of `n`, in ascending order. -/
def State.forEach (s : State) (n : Nat) (f : Fin n → State → State) : State :=
  (indices n).foldl (fun s i => f i s) s

/-! ### Calls -/

/-- What comes of a call in the block that owns it: the state after the block's own event, the answer the block
returns, and what the block hands on to other blocks, which they take after the answer is offered (assumption 6). -/
structure Taken where
  state : State
  reply : Reply
  after : State → State := id

/-- An answer of a status alone (R164). -/
def replyOnly (st : Status) : Reply := ⟨st, .bare⟩

/-- A call turned away with a status alone; it has changed nothing (R164). -/
def Taken.turnedAway (s : State) (st : Status) : Taken := { state := s, reply := replyOnly st }

/-- A call answered OK that changes nothing. -/
def Taken.report (s : State) (f : AnswerFields) : Taken := { state := s, reply := ⟨.ok, f⟩ }

/-- OK, or CLAMPED when a value was moved. -/
def okOrClamped (moved : Bool) : Status := if moved then .clamped else .ok

/-- A link's receiver set to a state. -/
def State.setReceiver (s : State) (l : Link) (r : Receiver) : State :=
  { s with links := s.links.setLink l { s.links.link l with receiver := r } }

/-- An answer offered to the queue of the link the call came from, with the call's tag and its kind plus 0x80 (R159,
R162). -/
def State.answerCode (s : State) (code : Byte) (o : Origin) (r : Reply) : State :=
  { s with links := s.links.offer o.link ⟨code + 0x80, o.tag, .answer r⟩ }

/-- An answer to a known call. -/
def State.answer (s : State) (k : CallKind) (o : Origin) (r : Reply) : State := s.answerCode (kindCode k) o r

/-- Whether an answer offered on a link now joins its queue (R163). -/
def State.answerJoins (s : State) (l : Link) : Bool := (s.links.link l).queue.length < Config.queueFrames

/-- A complete frame received that is a call of a known kind (R160, R162). Its receiver goes back to hunting. Once a
RESTART is accepted it is discarded (R170). Otherwise LEVEL, a malformed body's RANGE, and the owner's own event
follow in that order, and the call gets exactly one answer. -/
def State.takeCall {α : Type} (s : State) (k : CallKind) (o : Origin) (body : Body α) (own : α → State → Taken) :
    State :=
  let s := s.setReceiver o.link .hunting
  if s.links.restart.isSome then s
  else if linkMay k o.link then
    match body with
    | none => s.answer k o (replyOnly .range)
    | some a =>
      let t := own a s
      t.after (t.state.answer k o t.reply)
  else s.answer k o (replyOnly .level)

/-! ### Power -/

/-- A command other than those of power and reset does nothing while the part is held in reset or has no supply
(R157, R176). -/
def State.whenRunning (s : State) (f : State → State) : State := if s.power = .running then f s else s

/-- A command's effect as the outcome of a step. -/
def State.run (s : State) (f : State → State) : Result := .next (s.whenRunning f)

/-- A call's effect as the outcome of a step. -/
def State.runCall {α : Type} (s : State) (k : CallKind) (o : Origin) (body : Body α) (own : α → State → Taken) :
    Result :=
  s.run (fun s => s.takeCall k o body own)

end Sys2Proof.Machine
end

