-- ==== Sys2Proof/Machine/Budget.lean ====
section
/-! DEFINITION. The Load Allocator's own events (R106 to R127): the cap in force, the pass through the five classes,
the curtains and lighting requests served between passes, a zone going OFF and a heater stage whose request is gone.
What the Lighting Unit makes of a changed grant is in Machine/Lighting.lean. -/

namespace Sys2Proof.Machine

/-! ### Figures -/

/-- The cap in force (R106). -/
def Allocator.capInForce (a : Allocator) : Nat :=
  match a.supCap with
  | none => a.phaseCap
  | some c => min a.phaseCap c.units

/-- The headroom: the cap in force less the total granted (R121). -/
def Allocator.headroom (a : Allocator) : Int := (a.capInForce : Int) - (a.total : Int)

/-- The draw of a lamp group at a level: the ceiling of its rating times the level divided by 100 (R110). -/
def draw (rating level : Nat) : Nat := ceilDiv' (rating * level) 100

/-- Entry `i` of a list numbered from 1, 0 outside it. -/
def nth1 (l : List Nat) (i : Nat) : Nat := (l.drop (i - 1)).headD 0

/-- The rating of heater stage `i`, numbered from 1. -/
def stageRating (r : Table 4 Nat) (i : Nat) : Nat := nth1 r.rows i

/-- The ratings of heater stages 1 to `k` together. -/
def stagesRating (r : Table 4 Nat) (k : Nat) : Nat := (r.rows.take k).sum

/-- The time since change of heater stage `i`, numbered from 1 (R112). -/
def ZoneGrant.time (g : ZoneGrant) (i : Nat) : Nat := nth1 g.times.rows i

/-- The committed stages: up to the highest stage that is on and within its minimum on (R116). -/
def ZoneGrant.committedNow (g : ZoneGrant) (minOn : Nat) : Nat :=
  largestWhere (fun i => g.time i < minOn) g.heat

/-- A zone's heater stages brought to a grant: each stage that switches on or off has its time since change set to 0,
the others keep theirs (R112, R119). -/
def ZoneGrant.setHeat (g : ZoneGrant) (k : Nat) : ZoneGrant :=
  { g with heat := k, times := g.times.mapIdx fun i t => if (i.val < g.heat) != (i.val < k) then 0 else t }

/-- The entry of a zone that is OFF, and of every zone before the first demand set arrives (R101, R114). -/
def ZoneDemand.offEntry : ZoneDemand := ⟨.off, none, 0, 0, 0⟩

/-- A zone's entry in the last demand set (R114). -/
def Allocator.demandOf (a : Allocator) (z : Fin 8) : ZoneDemand :=
  match a.demand with
  | none => ZoneDemand.offEntry
  | some d => d.get z

/-- The desired level requested, taken as the floor when it is below it (R114). -/
def GroupGrant.wanted (g : GroupGrant) : Nat := max g.floorRequest g.levelRequest

/-! ### Records replaced -/

def State.setGrant (s : State) (z : Fin 8) (g : ZoneGrant) : State :=
  { s with budget := { s.budget with zones := s.budget.zones.set z g } }

def State.setGroupGrant (s : State) (g : Fin 24) (x : GroupGrant) : State :=
  { s with budget := { s.budget with groups := s.budget.groups.set g x } }

def State.setCurtain (s : State) (c : Fin 16) (x : Curtain) : State :=
  { s with doors := { s.doors with curtains := s.doors.curtains.set c x } }

def State.setTotal (s : State) (total : Nat) : State := { s with budget := { s.budget with total := total } }

def State.setReserved (s : State) (reserved : Nat) : State :=
  { s with budget := { s.budget with reserved := reserved } }

/-! ### The latches follow the grants (R153) -/

/-- Whether an owned output function is granted, none for every other binding (R153). -/
def State.functionOn (s : State) : Binding → Option Bool
  | .heat z i => some (i ≤ (s.budget.zones.get z).heat)
  | .fan z i => some (i ≤ (s.budget.zones.get z).fans)
  | .curtain c => some (s.doors.curtains.get c).granted
  | _ => none

/-- Every line bound to an owned output function has its latch set from the grant table; the next scan drives it. -/
def State.followGrants (s : State) : State :=
  { s with lines := { s.lines with lines := s.lines.lines.map fun l =>
      match l.config.mode, s.functionOn l.config.binding with
      | .output, some on => { l with latch := on }
      | _, _ => l } }

/-! ### The pass -/

/-- The grants a pass forms. -/
structure Grants where
  heat     : Table 8 Nat
  fans     : Table 8 Nat
  curtains : Table 16 Bool
  levels   : Table 24 Nat
deriving DecidableEq, Repr

/-- The sum of the ratings and draws of everything granted (R121). -/
def Grants.total (g : Grants) (r : Ratings) : Nat :=
  (Table.ofFn fun z : Fin 8 => stagesRating (r.heaters.get z) (g.heat.get z)).sum
    + (Table.ofFn fun z : Fin 8 => r.fans.get z * g.fans.get z).sum
    + (Table.ofFn fun c : Fin 16 => if g.curtains.get c then r.curtains.get c else 0).sum
    + (Table.ofFn fun i : Fin 24 => draw (r.groups.get i) (g.levels.get i)).sum

/-- The gas floor the first class grants a zone: none to a zone OFF in the last demand set (R116). -/
def Allocator.floorFansNow (a : Allocator) (z : Fin 8) : Nat :=
  if (a.demandOf z).mode = .off then 0 else (a.demandOf z).gasFloor

/-- The first class: gas-floor fans, committed heater stages and lighting floors, without a fit check (R116). -/
def Allocator.reservedGrants (a : Allocator) : Grants where
  heat     := a.zones.map (·.committedNow a.minOn)
  fans     := Table.ofFn a.floorFansNow
  curtains := Table.fill 16 false
  levels   := a.groups.map (·.floorRequest)

/-- The grants so far and the remainder they leave (R115). -/
structure Round where
  grants : Grants
  left   : Nat
deriving DecidableEq, Repr

/-- The second class takes a curtain: granted when it is DEMANDED or in RUN_ON and its rating fits (R118). -/
def Round.offerCurtain (w : Round) (s : State) (c : Fin 16) : Round :=
  let rating := s.budget.ratings.curtains.get c
  if (s.doors.curtains.get c).state ≠ .idle ∧ rating ≤ w.left then
    { grants := { w.grants with curtains := w.grants.curtains.set c true }, left := w.left - rating }
  else w

/-- Fan stage `r` offered to a zone (R118). A zone that was denied a lower stage, or already holds stage `r`, does not
stand at `r - 1` stages granted. -/
def Round.offerFan (w : Round) (a : Allocator) (r : Nat) (z : Fin 8) : Round :=
  let rating := a.ratings.fans.get z
  if r ≤ (a.demandOf z).fans ∧ w.grants.fans.get z + 1 = r ∧ rating ≤ w.left then
    { grants := { w.grants with fans := w.grants.fans.set z r }, left := w.left - rating }
  else w

/-- Heater stage `r` offered to a zone (R119): a stage that is off and within its minimum off does not fit. -/
def Round.offerHeat (w : Round) (a : Allocator) (r : Nat) (z : Fin 8) : Round :=
  let g := a.zones.get z
  let rating := stageRating (a.ratings.heaters.get z) r
  if r ≤ (a.demandOf z).heat ∧ w.grants.heat.get z + 1 = r ∧ ¬ (g.heat < r ∧ g.time r < a.minOff)
      ∧ rating ≤ w.left then
    { grants := { w.grants with heat := w.grants.heat.set z r }, left := w.left - rating }
  else w

/-- The largest level from `base` up to `base + n` whose draw exceeds that at `base` by at most `budget` (R120). -/
def largestLevel (rating base n budget : Nat) : Nat :=
  base + largestWhere (fun k => draw rating (base + k) - draw rating base ≤ budget) n

/-- The fifth class takes a lamp group (R120). -/
def Round.offerLight (w : Round) (a : Allocator) (g : Fin 24) : Round :=
  let x := a.groups.get g
  let rating := a.ratings.groups.get g
  let top := largestLevel rating x.floorRequest (x.wanted - x.floorRequest) w.left
  { grants := { w.grants with levels := w.grants.levels.set g top },
    left := w.left - (draw rating top - draw rating x.floorRequest) }

/-- A zone put into an order by descending E', behind those with an equal E' already there (R117). -/
def insertZone (key : Fin 8 → Int) (z : Fin 8) : List (Fin 8) → List (Fin 8)
  | [] => [z]
  | y :: ys => if key y < key z then z :: y :: ys else y :: insertZone key z ys

/-- The zones of a mode, ascending. -/
def Allocator.zonesIn (a : Allocator) (m : ZoneMode) : List (Fin 8) :=
  (indices 8).filter fun z => (a.demandOf z).mode = m

/-- The zone order: MANUAL ascending, AUTO by descending E' with ties ascending, DEGRADED ascending (R117). -/
def Allocator.zoneOrder (a : Allocator) : List (Fin 8) :=
  a.zonesIn .manual
    ++ (a.zonesIn .auto).foldl (fun l z => insertZone (fun y => ((a.demandOf y).effective).getD 0) z l) []
    ++ a.zonesIn .degraded

/-- Classes two to five, in order (R118 to R120). -/
def State.offerClasses (s : State) (w : Round) : Round :=
  let a := s.budget
  let w := (indices 16).foldl (fun w c => w.offerCurtain s c) w
  let w := [1, 2, 3].foldl (fun w r => a.zoneOrder.foldl (fun w z => w.offerFan a r z) w) w
  let w := [1, 2, 3, 4].foldl (fun w r => a.zoneOrder.foldl (fun w z => w.offerHeat a r z) w) w
  (indices 24).foldl (fun w g => w.offerLight a g) w

/-- The grants of a pass: under OVERCAP the reserved class alone (R116). -/
def State.passGrants (s : State) : Grants :=
  let base := s.budget.reservedGrants
  let reserved := base.total s.budget.ratings
  if s.budget.capInForce < reserved then base else (s.offerClasses ⟨base, s.budget.capInForce - reserved⟩).grants

/-- The allocator's records as a pass leaves them (R119, R121, R127). -/
def State.passBudget (s : State) : Allocator :=
  let a := s.budget
  let g := s.passGrants
  { a with
    zones := a.zones.mapIdx fun z x =>
      { x.setHeat (g.heat.get z) with
        fans := g.fans.get z, committed := x.committedNow a.minOn, floorFans := a.floorFansNow z }
    groups := a.groups.mapIdx fun i x => { x with level := g.levels.get i }
    reserved := a.reservedGrants.total a.ratings
    total := g.total a.ratings
    passes := satAdd Config.max32 a.passes 1 }

/-- A pass: the whole grant table recomputed from nothing (R115 to R121). It delivers OVERCAP when the reserved total
exceeds the cap in force (R116), writes the curtains' granted fields and hands the Line Unit its changes. -/
def State.pass (s : State) : State :=
  let g := s.passGrants
  State.followGrants
    { s with
      budget := s.passBudget
      doors := { s.doors with curtains := s.doors.curtains.mapIdx fun c x => { x with granted := g.curtains.get c } }
      links := if s.budget.capInForce < s.passBudget.reserved then s.links.raise .overcap else s.links }

/-! ### Curtains between passes (R122, R123) -/

/-- A curtain that is DEMANDED or in RUN_ON and not granted is granted when its rating is at most the headroom. -/
def State.tryCurtain (s : State) (c : Fin 16) : State :=
  let x := s.doors.curtains.get c
  let rating := s.budget.ratings.curtains.get c
  if x.state ≠ .idle ∧ x.granted = false ∧ (rating : Int) ≤ s.budget.headroom then
    (s.setCurtain c { x with granted := true }).setTotal (s.budget.total + rating)
  else s

/-- The waiting curtains retried, in curtain order (R123). -/
def State.retryCurtains (s : State) : State := (s.forEach 16 fun c s => s.tryCurtain c).followGrants

/-- A curtain's demand taken by the allocator (R122). -/
def State.curtainDemand (s : State) (c : Fin 16) : State := (s.tryCurtain c).followGrants

/-- A curtain's release taken by the allocator: its rating returned when it was granted, and the waiting curtains
retried (R123). -/
def State.curtainRelease (s : State) (c : Fin 16) : State :=
  let x := s.doors.curtains.get c
  if x.granted then
    ((s.setCurtain c { x with granted := false }).setTotal
      (s.budget.total - s.budget.ratings.curtains.get c)).retryCurtains
  else s

/-! ### A zone going OFF, and a request that has gone (R125, R126) -/

/-- A zone marked OFF in the last demand set (R114). -/
def State.markOff (s : State) (z : Fin 8) : State :=
  { s with budget := { s.budget with demand := s.budget.demand.map fun d => d.set z ZoneDemand.offEntry } }

/-- The ratings of a zone's granted heater and fan stages. -/
def Allocator.zoneLoad (a : Allocator) (z : Fin 8) : Nat :=
  let g := a.zones.get z
  stagesRating (a.ratings.heaters.get z) g.heat + a.ratings.fans.get z * g.fans

/-- What the reserved total holds for a zone (R125, R127). -/
def Allocator.zoneReserved (a : Allocator) (z : Fin 8) : Nat :=
  let g := a.zones.get z
  stagesRating (a.ratings.heaters.get z) g.committed + a.ratings.fans.get z * g.floorFans

/-- A mode event to OFF taken by the allocator (R114, R125): the zone is marked OFF, its stages switch off at once, its
ratings leave the total and the reserved total, and the waiting curtains are retried when a grant was held. -/
def State.zoneOff (s : State) (z : Fin 8) : State :=
  let s := s.markOff z
  let a := s.budget
  let g := a.zones.get z
  if g.heat = 0 ∧ g.fans = 0 then s
  else
    (((s.setGrant z { g.setHeat 0 with fans := 0, committed := 0, floorFans := 0 }).setTotal
      (a.total - a.zoneLoad z)).setReserved (a.reserved - a.zoneReserved z)).retryCurtains

/-- Whether the check of R126 switches stages of a zone off: its highest stage that is on is past its minimum on while
its h is below that stage. -/
def Allocator.requestGone (a : Allocator) (z : Fin 8) : Bool :=
  let g := a.zones.get z
  (a.demandOf z).heat < g.heat && a.minOn ≤ g.time g.heat

/-- The check of R126 for a zone. -/
def State.stageCheck (s : State) (z : Fin 8) : State :=
  let a := s.budget
  let g := a.zones.get z
  let h := (a.demandOf z).heat
  let r := a.ratings.heaters.get z
  if a.requestGone z then
    (((s.setGrant z { g.setHeat h with committed := min g.committed h }).setTotal
      (a.total - (stagesRating r g.heat - stagesRating r h))).setReserved
      (a.reserved - (stagesRating r g.committed - stagesRating r (min g.committed h)))).retryCurtains
  else s

/-- Every heater stage of a zone one second older (R112). -/
def State.ageStages (s : State) (z : Fin 8) : State :=
  let g := s.budget.zones.get z
  s.setGrant z { g with times := g.times.map fun t => satAdd Config.max16 t 1 }

/-! ### A lighting request (R124) -/

/-- A lighting request: a group's floor and the level it asks for. -/
structure LightRequest where
  group : Fin 24
  floor : Nat
  level : Nat
deriving DecidableEq, Repr

/-- Step 4 of R124: a group granted `at` with a desired level above it is raised as far as the headroom allows. -/
def raisedLevel (rating granted desired : Nat) (headroom : Int) : Nat :=
  if granted < desired ∧ 0 < headroom then largestLevel rating granted (desired - granted) headroom.toNat else granted

/-- Steps 1 to 4 of R124 and the reserved total reckoned afresh. -/
def State.applyRequest (s : State) (q : LightRequest) : State :=
  let a := s.budget
  let x := a.groups.get q.group
  let rating := a.ratings.groups.get q.group
  let desired := max q.floor q.level
  let fallen := max (min x.level desired) q.floor
  let total := a.total + draw rating fallen - draw rating x.level
  let level := raisedLevel rating fallen desired ((a.capInForce : Int) - (total : Int))
  ((s.setGroupGrant q.group ⟨level, q.floor, desired⟩).setTotal
    (total + draw rating level - draw rating fallen)).setReserved
    (a.reserved + draw rating q.floor - draw rating x.floorRequest)

/-- Whether anything granted outside the reserved class stands above max(0, cap in force − reserved total) (R124). -/
def Allocator.overdrawn (a : Allocator) : Bool :=
  max 0 ((a.capInForce : Int) - (a.reserved : Int)) < (a.total : Int) - (a.reserved : Int)

/-- A lighting request taken by the allocator as one event (R124): OVERCAP when a floor grant or a raised floor leaves
the reserved total above the cap in force; a pass when too much is then granted outside the reserved class; the waiting
curtains retried when the granted level was lowered. -/
def State.lightRequest (s : State) (q : LightRequest) : State :=
  let x := s.budget.groups.get q.group
  let t := s.applyRequest q
  let floorRaised := x.floorRequest < q.floor ∨ x.level < q.floor
  let t := t.raiseIf (floorRaised ∧ t.budget.capInForce < t.budget.reserved) .overcap
  let t := if t.budget.overdrawn then t.pass else t
  if max q.floor q.level < x.level then t.retryCurtains else t

end Sys2Proof.Machine
end

