-- ==== Sys2Proof/Machine/Sensors.lean ====
section
/-! DEFINITION. The Sensor Bus Master (R67 to R80): polls and replies, ageing, source readings, and the calls that
configure nodes, limits and the source map. -/

namespace Sys2Proof.Machine

/-! ### Source readings (R80) -/

/-- The reading handed for a source map entry: LOST with no value when it names none, an unconfigured node or a LOST
node; otherwise the node's status and value. -/
def Sensors.reading (m : Sensors) : Option (Fin 16) → Reading
  | none => .lost
  | some n =>
    let x := m.nodes.get n
    match x.config.configured, x.status, x.value with
    | true, .fresh, some v => ⟨.fresh, some v⟩
    | true, .suspect, some v => ⟨.suspect, some v⟩
    | true, .held, some v => ⟨.held, some v⟩
    | _, _, _ => .lost

/-- The outdoor source is handed with the assumed outdoor code while it is LOST. -/
def Sensors.outdoorReading (m : Sensors) : Reading :=
  let r := m.reading m.map.outdoor
  if r.status = .lost then ⟨.lost, some m.assumed⟩ else r

/-- A source reading counts as usable when its status is not LOST (R85). -/
def Reading.usable (r : Reading) : Bool := r.status != .lost

/-! ### Nodes -/

def State.setNode (s : State) (n : Fin 16) (x : Node) : State :=
  { s with sensors := { s.sensors with nodes := s.sensors.nodes.set n x } }

/-- A node's status once its age is compared with the limits (R74). -/
def agedStatus (stale degrade : Nat) (status : NodeStatus) (age : Nat) : NodeStatus :=
  match status with
  | .fresh | .suspect => if degrade ≤ age then .lost else if stale ≤ age then .held else status
  | .held => if degrade ≤ age then .lost else .held
  | .lost => .lost
  | .unconfigured => .unconfigured

/-- A configured node compared with the limits; a transition to LOST delivers SENSOR_LOST (R74, R75). -/
def State.compareNode (s : State) (n : Fin 16) : State :=
  let x := s.sensors.nodes.get n
  if x.config.configured then
    let st := agedStatus s.sensors.stale s.sensors.degrade x.status x.age
    (s.setNode n { x with status := st }).raiseIf (st == .lost && x.status != .lost) .sensorLost
  else s

/-- A node one second older; unconfigured nodes do not age (R74). -/
def Node.older (x : Node) : Node :=
  if x.config.configured then { x with age := satAdd Config.max16 x.age 1 } else x

/-- A node's second boundary (R74). -/
def State.nodeSecond (s : State) (n : Fin 16) : State :=
  (s.setNode n (s.sensors.nodes.get n).older).compareNode n

/-- The status a node's second boundary would bring. -/
def State.nodeNext (s : State) (n : Fin 16) : NodeStatus :=
  let x := (s.sensors.nodes.get n).older
  if x.config.configured then agedStatus s.sensors.stale s.sensors.degrade x.status x.age else x.status

/-! ### The round of polls (R71, R76) -/

/-- The lowest configured address at or above row `from`. -/
def Sensors.configuredFrom (m : Sensors) (start : Nat) : Option (Fin 16) :=
  (indices 16).find? fun n => decide (start ≤ n.val) && (m.nodes.get n).config.configured

/-- A new round begins with a poll of the lowest configured address; none when no node is configured. -/
def State.startRound (s : State) : State :=
  { s with sensors := { s.sensors with polled := s.sensors.configuredFrom 0, roundMark := false } }

/-- The next poll after that of node `n`: the lowest configured address above it; when there is none the round is
complete, BUS_SILENT is delivered if the round mark is clear, and a new round begins. -/
def State.pollAfter (s : State) (n : Fin 16) : State :=
  match s.sensors.configuredFrom (n.val + 1) with
  | some m => { s with sensors := { s.sensors with polled := some m } }
  | none => (s.raiseIf (!s.sensors.roundMark) .busSilent).startRound

/-- A node after a poll that failed (R72). -/
def Node.failed (x : Node) : Node := { x with failures := satAdd 255 x.failures 1 }

/-- A node after the reply `r` to its poll (R72). `matching` says that address and type match the record. -/
def Node.judge (x : Node) (r : ReplyFrame) (matching : Bool) : Node :=
  let value := some (convertReading x.config.type r.value)
  match matching, checkRight r, x.config.filter with
  | true, true, _ => { x with value := value, status := .fresh, age := 0, failures := 0 }
  | true, false, .accept => { x.failed with value := value, status := .suspect, age := 0 }
  | _, _, _ => x.failed

/-- Whether a reply's address and type match the record of the node polled (R72). -/
def Node.repliedBy (x : Node) (n : Fin 16) (r : ReplyFrame) : Bool :=
  r.address == address n && r.type == typeCode x.config.type

/-- A complete reply frame taken while a poll waits (R72); with no poll in progress the frame counts as nothing. DESIGN
CHOICE: a frame that ends while a poll waits is judged as that poll's reply, also where an abandoned poll drew it
(assumption 44). -/
def State.takeReply (s : State) (r : ReplyFrame) : State :=
  match s.sensors.polled with
  | none => s
  | some n =>
    let x := s.sensors.nodes.get n
    let good := x.repliedBy n r && checkRight r
    let t := s.setNode n (x.judge r (x.repliedBy n r))
    State.pollAfter { t with sensors := { t.sensors with roundMark := t.sensors.roundMark || good } } n

/-- The wait of a poll ends with no complete reply (R72). -/
def State.endWait (s : State) : State :=
  match s.sensors.polled with
  | none => s
  | some n => (s.setNode n (s.sensors.nodes.get n).failed).pollAfter n

/-! ### Calls -/

/-- The source map entries that name a node (R69). DESIGN CHOICE: in the order of the table of R78, temperature and then gas
sources ascending by zone, the outdoor source, the daylight source (assumption 57). -/
def SourceMap.namesOf (m : SourceMap) (n : Fin 16) : List SourceName :=
  ((indices 8).filter (fun z => m.temperature.get z = some n)).map .temperature
    ++ ((indices 8).filter (fun z => m.gas.get z = some n)).map .gas
    ++ (if m.outdoor = some n then [.outdoor] else [])
    ++ (if m.daylight = some n then [.daylight] else [])

/-- The type an entry of the source map requires (R78). -/
def SourceName.type : SourceName → NodeType
  | .temperature _ => .temp
  | .gas _ => .gas
  | .outdoor => .outdoor
  | .daylight => .daylight

/-- The polling after a change of a node's configuration (R71): the first configured node starts a round; a node
unconfigured or retyped during its own poll has that poll abandoned, and with no node left the round is abandoned. -/
def State.repoll (s : State) (n : Fin 16) (abandoned : Bool) : State :=
  match s.sensors.polled with
  | none => s.startRound
  | some m =>
    if m = n ∧ abandoned then
      match s.sensors.configuredFrom 0 with
      | none => { s with sensors := { s.sensors with polled := none } }
      | some _ => s.pollAfter n
    else s

/-- NODE_CONFIG in the Sensor Bus Master (R68). A BUS_SILENT that the choice of the next poll brings is part of the call's own
event, so its ATTENTION notice precedes the answer (DESIGN CHOICE, assumption 45). DESIGN CHOICE: a call that is both out
of range and active is answered RANGE (assumption 66). -/
def ownNodeConfig (a : NodeConfigArgs) (s : State) : Taken :=
  match nodeRow a.node, a.type, a.filter with
  | none, _, _ => .turnedAway s .range
  | _, some none, _ => .turnedAway s .range
  | _, _, some none => .turnedAway s .range
  | some n, type, filter =>
    let x := s.sensors.nodes.get n
    let c : NodeConfig :=
      ⟨a.configured.getD x.config.configured, (type.bind id).getD x.config.type, (filter.bind id).getD x.config.filter⟩
    if c.configured && (s.sensors.map.namesOf n).any (fun e => e.type != c.type) then .turnedAway s .active
    else
      let afresh := c.configured != x.config.configured || (c.configured && c.type != x.config.type)
      let y := if afresh then Node.initial c else { x with config := c }
      { state := (s.setNode n y).repoll n afresh, reply := ⟨.ok, .node y⟩ }

/-- NODE_READ (R69). -/
def ownNodeRead (a : IndexArgs) (s : State) : Taken :=
  match nodeRow a.index with
  | none => .turnedAway s .range
  | some n => .report s (.nodeRead (s.sensors.nodes.get n) (s.sensors.map.namesOf n))

/-- A source map with one entry written (R79), none when the item names an entry that does not exist, a node outside
1..16, or a configured node of another type than the entry requires. -/
def Sensors.writeEntry (m : Sensors) (map : SourceMap) (i : SourceItem) : Option SourceMap := do
  let type ← requiredType i.entry
  let node ← match i.node with
    | none => some none
    | some b => (nodeRow b).map some
  match node with
  | some n =>
    let c := (m.nodes.get n).config
    if c.configured && c.type != type then none else some ()
  | none => some ()
  match i.entry with
  | .temperature b => (row 8 b).map fun z => { map with temperature := map.temperature.set z node }
  | .gas b => (row 8 b).map fun z => { map with gas := map.gas.set z node }
  | .outdoor => some { map with outdoor := node }
  | .daylight => some { map with daylight := node }
  | .noSuchEntry => none

/-- Every item written in order, a later item for the same entry taking effect last. -/
def Sensors.writeMap (m : Sensors) : List SourceItem → SourceMap → Option SourceMap
  | [], map => some map
  | i :: rest, map => (m.writeEntry map i).bind (m.writeMap rest)

/-- SOURCE_MAP_WRITE (R79). -/
def ownSourceMapWrite (a : SourceMapArgs) (s : State) : Taken :=
  match s.sensors.writeMap a.items s.sensors.map with
  | none => .turnedAway s .range
  | some map => { state := { s with sensors := { s.sensors with map := map } }, reply := ⟨.ok, .sourceMap map⟩ }

/-- SENSOR_LIMITS (R77): the limits clamped, the degrade limit kept above the stale limit, and a changed limit
compared at once with every configured node's age (R74). A SENSOR_LOST it brings is part of the call's own event, so its
ATTENTION notice precedes the answer (DESIGN CHOICE, assumption 45). -/
def ownSensorLimits (a : SensorLimitsArgs) (s : State) : Taken :=
  let m := s.sensors
  let stale := (a.stale.map fun v => clampNat 5 255 v.toNat).getD m.stale
  let written := (a.degrade.map fun v => clampNat 10 3600 v.toNat).getD m.degrade
  let degrade := if written ≤ stale then stale + 1 else written
  let assumed := (a.assumed.map BitVec.toNat).getD m.assumed
  let moved := a.stale.any (fun v => v.toNat != stale) || a.degrade.any (fun v => v.toNat != written)
    || written != degrade
  let t : State := { s with sensors := { m with stale := stale, degrade := degrade, assumed := assumed } }
  { state := if stale = m.stale ∧ degrade = m.degrade then t else t.forEach 16 fun n s => s.compareNode n
    reply := ⟨okOrClamped moved, .sensorLimits stale degrade assumed⟩ }

/-! ### Meanings -/

/-- REPLY_RECEIVED (R72). -/
def execReplyReceived (r : ReplyFrame) (s : State) : Result := s.run (·.takeReply r)

/-- POLL_WAIT_END (R72). -/
def execPollWaitEnd (s : State) : Result := s.run State.endWait

/-- NODE_CONFIG (R68, R71). -/
def execNodeConfig (o : Origin) (b : Body NodeConfigArgs) (s : State) : Result := s.runCall .nodeConfig o b ownNodeConfig

/-- NODE_READ (R69). -/
def execNodeRead (o : Origin) (b : Body IndexArgs) (s : State) : Result := s.runCall .nodeRead o b ownNodeRead

/-- SOURCE_MAP_WRITE (R79). -/
def execSourceMapWrite (o : Origin) (b : Body SourceMapArgs) (s : State) : Result :=
  s.runCall .sourceMapWrite o b ownSourceMapWrite

/-- SENSOR_LIMITS (R77). -/
def execSensorLimits (o : Origin) (b : Body SensorLimitsArgs) (s : State) : Result :=
  s.runCall .sensorLimits o b ownSensorLimits

end Sys2Proof.Machine
end

