-- ==== Sys2Proof/Machine/Lighting.lean ====
section
/-! DEFINITION. The Lighting Unit's events (R128 to R146): occupancy, the desired level with its daylight trim,
overrides, ramp steps, the requests handed to the Load Allocator and what its grants do to a group. The calls are in
Machine/LampCalls.lean. -/

namespace Sys2Proof.Machine

/-! ### One group -/

/-- The base in use: the scene's level while LIT, its vacant level while VACANT (R135). R135 forms none for a group
that is OVERRIDDEN or DISABLED, so none is in use then. -/
def sceneBase (sc : Scene) : GroupState → Option Nat
  | .lit => some sc.level
  | .vacant => some sc.vacant
  | .overridden | .disabled => none

/-- The daylight trim with a given base and floor (R136). A LOST reading carries no value. -/
def Daylight.trimFor (d : Daylight) (base floor : Nat) : Nat :=
  match d.reading.value with
  | none => 0
  | some lux =>
    if d.reading.usable ∧ d.luxStart < lux then min ((lux - d.luxStart) * d.gain / 1000) (base - floor) else 0

/-- A group's trim: 0 unless it is daylight-trimmed and LIT or VACANT (R135, R136). -/
def Group.trimNow (x : Group) (sc : Scene) (d : Daylight) : Nat :=
  match x.config.trimmed, x.state with
  | true, .lit => d.trimFor sc.level sc.floor
  | true, .vacant => d.trimFor sc.vacant sc.floor
  | _, _ => 0

/-- A group's desired level (R135). -/
def Group.desiredNow (x : Group) (sc : Scene) (d : Daylight) : Nat :=
  match x.state with
  | .disabled => 0
  | .overridden => max ((x.override.map GroupOverride.level).getD 0) sc.floor
  | .lit => max sc.floor (sc.level - x.trimNow sc d)
  | .vacant => max sc.floor (sc.vacant - x.trimNow sc d)

/-- The target: the smaller of the desired level and the granted level (R143). -/
def Group.target (x : Group) : Nat := min x.desired x.granted

/-- With ramp rate 0 the output is set to the target at once whenever the target has changed from `old` (R143). DESIGN
CHOICE: where a GROUP_CONFIG changes the rate from or to 0 and moves the target, the rate is the one written
(assumption 58). -/
def Group.followTarget (x : Group) (old : Nat) : Group :=
  if x.config.rampRate = 0 ∧ x.target ≠ old then { x with output := x.target } else x

/-- A group recomputed (R138): its trim and desired level formed, and a floor above the output met at once, the
granted level being raised with it (R140, R144). A DISABLED group is dark (R130); its trim is 0 (DESIGN CHOICE,
assumption 53). -/
def Group.recompute (x : Group) (sc : Scene) (d : Daylight) : Group :=
  if x.state = .disabled then { x with trim := 0, desired := 0, output := 0 }
  else
    Group.followTarget
      { x with
        trim := x.trimNow sc d, desired := x.desiredNow sc d, granted := max x.granted sc.floor,
        output := max x.output sc.floor }
      x.target

/-- One ramp step towards the target (R143). -/
def Group.rampStep (x : Group) : Group :=
  if x.state = .disabled then x
  else if x.config.rampRate = 0 then { x with output := x.target }
  else if x.output < x.target then { x with output := min x.target (x.output + x.config.rampRate) }
  else { x with output := max x.target (x.output - x.config.rampRate) }

/-- The request a group makes: its floor, and the larger of its desired level and its output (R139). -/
def Group.requestNow (x : Group) (sc : Scene) : Nat × Nat :=
  if x.state = .disabled then (0, 0) else (sc.floor, max x.desired x.output)

/-- A granted level handed by the allocator (R140, R144): recorded as at least the floor requested; a grant below the
output brings the output down at once. -/
def Group.takeGrant (x : Group) (level : Nat) : Group :=
  let granted := max level x.floorRequest
  Group.followTarget { x with granted := granted, output := min x.output granted } x.target

/-- A full hold: 60 times the occupancy hold, absent when that is 0 (R130, R133). -/
def GroupConfig.fullHold (c : GroupConfig) : Option Nat := if c.hold = 0 then none else some (60 * c.hold)

/-- An occupancy event (R133). -/
def Group.occupied (x : Group) : Group :=
  { x with hold := x.config.fullHold, state := if x.state = .vacant then .lit else x.state }

/-- A group that takes occupancy events: enabled, with an occupancy hold that is not 0 (R130, R131). -/
def Group.takesOccupancy (x : Group) : Bool := x.state != .disabled && x.config.hold != 0

/-- A group's override ended: LIT or VACANT as its hold says (R130, R142). -/
def Group.endOverride (x : Group) : Group :=
  { x with override := none, state := if x.hold = some 0 then .vacant else .lit }

/-- The override's seconds remaining decreased, an override that reaches 0 ended (R142). -/
def Group.countOverride (x : Group) : Group :=
  match x.override with
  | none => x
  | some o => if o.seconds ≤ 1 then x.endOverride else { x with override := some { o with seconds := o.seconds - 1 } }

/-- The hold remaining decreased; at 0 a LIT group becomes VACANT (R133). -/
def Group.countHold (x : Group) : Group :=
  match x.hold with
  | some (n + 1) => { x with hold := some n, state := if n = 0 ∧ x.state = .lit then .vacant else x.state }
  | _ => x

/-- An enabled group's second boundary, less its request (R138). -/
def Group.second (x : Group) (sc : Scene) (d : Daylight) : Group :=
  if x.state = .disabled then x else (x.countOverride.countHold.recompute sc d).rampStep

/-- A group started: LIT, without override, its hold full (R130). -/
def Group.started (x : Group) : Group := { x with state := .lit, override := none, hold := x.config.fullHold }

/-- A group disabled: dark at once, its override and hold removed (R130). DESIGN CHOICE: its trim becomes 0, since R136 forms a
trim for LIT and VACANT groups alone (assumption 53). -/
def Group.disabledNow (x : Group) : Group :=
  { x with state := .disabled, override := none, hold := none, trim := 0, desired := 0, output := 0 }

/-! ### The group records and the exchange with the allocator -/

/-- A group's record replaced; its dimmer channel takes its output level (R143, R156). -/
def State.setGroup (s : State) (g : Fin 24) (x : Group) : State :=
  { s with
    lighting := { s.lighting with groups := s.lighting.groups.set g x }
    lines := { s.lines with dimmers := s.lines.dimmers.set g x.output } }

/-- A state with the lighting requests it hands to the allocator, in order. -/
abbrev Handed := State × List LightRequest

/-- A group's new record stored; when its request differs from what it last handed, the request is recorded and handed
(R139). -/
def State.putGroup (s : State) (g : Fin 24) (x : Group) : Handed :=
  let r := x.requestNow (s.scene g)
  if r = (x.floorRequest, x.levelRequest) then (s.setGroup g x, [])
  else (s.setGroup g { x with floorRequest := r.1, levelRequest := r.2 }, [⟨g, r.1, r.2⟩])

/-- One group's work within a Lighting Unit event, after the work before it. -/
def Handed.group (h : Handed) (f : State → Fin 24 → Group → Group) (g : Fin 24) : Handed :=
  let p := h.1.putGroup g (f h.1 g (h.1.lighting.groups.get g))
  (p.1, h.2 ++ p.2)

/-- The work of several groups within one event, in the order given. -/
def State.groupsDo (s : State) (gs : List (Fin 24)) (f : State → Fin 24 → Group → Group) : Handed :=
  gs.foldl (fun h g => Handed.group h f g) (s, [])

/-- The groups whose granted level differs between two states. -/
def grantsChanged (before s : State) : List (Fin 24) :=
  (indices 24).filter fun g => (before.budget.groups.get g).level ≠ (s.budget.groups.get g).level

/-- The Lighting Unit takes every granted level that changed since `before` (R121, R140). DESIGN CHOICE: in ascending group
number (assumption 49). -/
def State.takeGrants (s before : State) : Handed :=
  s.groupsDo (grantsChanged before s) fun s g x => x.takeGrant (s.budget.groups.get g).level

/-- The allocator takes one request as one event, and the Lighting Unit the granted levels it changed (R139, R140). -/
def Handed.serve (h : Handed) (q : LightRequest) : Handed :=
  let p := (h.1.lightRequest q).takeGrants h.1
  (p.1, h.2 ++ p.2)

/-- The requests handed by one event taken in the order they were handed, and those that their grants bring, in rounds
(assumption 7). `n` bounds the rounds. -/
def State.exchange : Nat → State → List LightRequest → State
  | 0, s, _ => s
  | n + 1, s, qs =>
    if qs.isEmpty then s
    else
      let h := qs.foldl Handed.serve (s, [])
      State.exchange n h.1 h.2

/-- The rounds an exchange may take. It ends long before: while no scene and no desired level changes, a group hands its floor
once and then only an output fallen lower, at most 102 requests from each of 24 groups (assumption 7). -/
def exchangeRounds : Nat := 4096

/-- The requests an event handed are taken by the allocator. -/
def Handed.settle (h : Handed) : State := State.exchange exchangeRounds h.1 h.2

/-! ### Passes and their grants -/

/-- A pass, and the Lighting Unit's taking of the levels it changed (R121). -/
def State.passAndHand (s : State) : State := (s.pass.takeGrants s).settle

/-- A pass with the last demand set when the cap in force differs from what it was in `before` (R109). -/
def State.passIfCapChanged (s before : State) : State :=
  if s.budget.capInForce = before.budget.capInForce then s else s.passAndHand

/-- A demand set received: it replaces the last one whole and starts a pass (R114, R115). -/
def State.takeDemand (s : State) (d : Table 8 ZoneDemand) : State :=
  State.passAndHand { s with budget := { s.budget with demand := some d } }

/-! ### Events of the Lighting Unit -/

/-- A group's record recomputed with the scene in force and the daylight as last taken. -/
def recomputed (s : State) (g : Fin 24) (x : Group) : Group := x.recompute (s.scene g) s.lighting.taken

/-- One event that recomputes one group after changing its record. -/
def State.groupEvent (s : State) (g : Fin 24) (f : Group → Group) : State :=
  (s.groupsDo [g] fun s g x => recomputed s g (f x)).settle

/-- A level delivered by a group's occupancy line (R131): a change to active is an occupancy event for a group that
takes them. -/
def State.deliverOccupancy (s : State) (g : Fin 24) (active : Bool) : State :=
  let x := s.lighting.groups.get g
  let seen := active && !x.lastOccupancy
  let t := s.setGroup g { x with lastOccupancy := active }
  if seen && x.takesOccupancy then t.groupEvent g Group.occupied else t

/-- Door activity naming a zone (R132). DESIGN CHOICE: the groups it reaches change, and hand their requests, in ascending
group number (assumption 49). -/
def State.doorActivity (s : State) (z : Fin 8) : State :=
  let gs := (indices 24).filter fun g =>
    let x := s.lighting.groups.get g
    x.takesOccupancy && x.config.doorLinked && decide (x.config.zone = z)
  (s.groupsDo gs fun s g x => recomputed s g x.occupied).settle

/-- A transition handed to the Lighting Unit: every enabled group retargeted in one event (R145). -/
def State.retarget (s : State) : State := (s.groupsDo (indices 24) recomputed).settle

/-- A table-change event for a scene of the phase in force: the group named recomputes (R138, R145). -/
def State.sceneChanged (s : State) (g : Fin 24) : State := s.groupEvent g id

/-- The daylight source reading and settings taken (R138). -/
def State.takeDaylight (s : State) : State :=
  { s with lighting := { s.lighting with
      taken := ⟨s.sensors.reading s.sensors.map.daylight, s.lighting.luxStart, s.lighting.gain⟩ } }

/-- The Lighting Unit's second boundary, one event for all groups in ascending order (R138). -/
def State.lightSecond (s : State) : State :=
  (s.takeDaylight.groupsDo (indices 24) fun s g x => x.second (s.scene g) s.lighting.taken).settle

/-- Whether a group's override ends at its next second boundary (R142). -/
def Group.overrideEnding (x : Group) : Bool := x.override.any (fun o => o.seconds ≤ 1)

/-- Whether a LIT group's hold reaches 0 at its next second boundary (R133). -/
def Group.holdEnding (x : Group) : Bool := x.state == .lit && x.hold == some 1

/-- Whether any group's override or hold ends at the Lighting Unit's next second boundary. -/
def State.lightEnding (s : State) : Bool :=
  (indices 24).any fun g => (s.lighting.groups.get g).overrideEnding || (s.lighting.groups.get g).holdEnding

/-- Every enabled group started, and every group handing its first request (R130, R138, R139). DESIGN CHOICE: in ascending
group number (assumption 50). -/
def State.startLights (s : State) : State :=
  (s.takeDaylight.groupsDo (indices 24) fun s g x =>
    recomputed s g (if x.config.enabled then x.started else x.disabledNow)).settle

end Sys2Proof.Machine
end

