-- ==== Sys2Proof/Machine/Doors.lean ====
section
/-! DEFINITION. The Door Unit (R40 to R66): settling, edges, HELD doors, the open-time rings, the curtains, the forecast
table, the door event queue with its batches, and the calls and events that concern them. -/

namespace Sys2Proof.Machine

def State.setChannel (s : State) (d : Fin 32) (x : Channel) : State :=
  { s with doors := { s.doors with channels := s.doors.channels.set d x } }

def State.channel (s : State) (d : Fin 32) : Channel := s.doors.channels.get d

/-- A door that stands open: OPEN or HELD (R41, R47). -/
def Channel.isOpen (x : Channel) : Bool := x.state == .opened || x.state == .held

/-! ### The door event queue (R58 to R60) -/

/-- The batch threshold in force (R59). -/
def State.threshold (s : State) : Nat := if busyClass s.phase then s.doors.busy else s.doors.quiet

/-- Records cut into parts of at most 24, in order (R60). -/
def batchParts : Nat → List DoorRecord → List (List DoorRecord)
  | 0, _ => []
  | n + 1, rs => if rs.isEmpty then [] else rs.take Config.batchRecords :: batchParts n (rs.drop Config.batchRecords)

/-- The run of DOOR_BATCH notices that carries some records (R60). -/
def batchRun (rs : List DoorRecord) : List Frame :=
  let parts := batchParts rs.length rs
  (parts.zip (List.range parts.length)).map fun p => noticeFrame (.doorBatch (Config.firstPart + p.2) parts.length p.1)

/-- Batches offered while the queue holds at least `n` records and the supervisor link has room for every part; each run
accepted is removed from the queue and the check is made again (R60). `fuel` bounds the batches. -/
def State.offerBatches : Nat → Nat → State → State
  | 0, _, s => s
  | fuel + 1, n, s =>
    let run := batchRun (s.doors.queue.take n)
    if 1 ≤ n ∧ n ≤ s.doors.queue.length ∧ run.length ≤ s.links.supervisor.room then
      State.offerBatches fuel n
        { s with
          doors := { s.doors with queue := s.doors.queue.drop n }
          links := s.links.setLink .supervisor (s.links.supervisor.offerAll run) }
    else s

/-- The batch check (R60). No notice is sent once a RESTART is accepted (R170), so no batch is accepted then. -/
def State.batchCheck (s : State) : State :=
  if s.doors.notices ∧ s.links.restart.isNone then State.offerBatches s.doors.queue.length s.threshold s else s

/-- A record offered to the queue: it joins the end, or QUEUE_OVERRUN is delivered when the queue holds 64 (R58). The
batch check follows (R60). -/
def State.offerRecord (s : State) (r : DoorRecord) : State :=
  State.batchCheck <|
    if s.doors.queue.length < Config.doorRecords then
      { s with doors := { s.doors with queue := s.doors.queue ++ [r] } }
    else s.raise .queueOverrun

/-- The record of an event of a door taken now (R58). -/
def State.recordOf (s : State) (d : Fin 32) (k : RecordKind) (interval : Option Nat) : DoorRecord :=
  ⟨d, k, s.now, s.phase, interval⟩

/-- The bit of a kind in the capture selection, none for HELD, which is recorded whatever the selection (R40, R47). -/
def captureBit : RecordKind → Option Nat
  | .opened => some 0 | .closed => some 1 | .trailerArrived => some 2 | .trailerLeft => some 3 | .held => none

/-- A record offered when its kind is in the channel's capture selection. -/
def State.capture (s : State) (d : Fin 32) (k : RecordKind) (interval : Option Nat) : State :=
  let captured := match captureBit k with
    | none => true
    | some i => (s.channel d).config.capture.getLsbD i
  if captured then s.offerRecord (s.recordOf d k interval) else s

/-! ### Curtains (R51 to R54) -/

/-- A curtain is wanted (R52). -/
def State.curtainWanted (s : State) (c : Fin 16) : Bool :=
  let x := s.doors.curtains.get c
  x.config.configured && s.zoneMode x.config.zone != .off
    && (indices 32).any fun d =>
      let ch := s.channel d
      ch.config.configured && ch.config.curtain == some c && ch.isOpen

/-- What a curtain hands the allocator when its state changes (R54). -/
inductive CurtainHand
  | nothing | demand | release
deriving DecidableEq, Repr

/-- A curtain re-evaluated (R52): its record and what it hands. -/
def Curtain.evaluate (x : Curtain) (wanted zoneOff : Bool) : Curtain × CurtainHand :=
  match x.state, wanted with
  | .idle, true => ({ x with state := .demanded }, .demand)
  | .idle, false => (x, .nothing)
  | .demanded, true => (x, .nothing)
  | .demanded, false =>
    if zoneOff || x.config.runOn == 0 then ({ x with state := .idle, remaining := none }, .release)
    else ({ x with state := .runOn, remaining := some x.config.runOn }, .nothing)
  | .runOn, true => ({ x with state := .demanded, remaining := none }, .nothing)
  | .runOn, false => if zoneOff then ({ x with state := .idle, remaining := none }, .release) else (x, .nothing)

/-- What a curtain hands is taken by the allocator (R122, R123). -/
def State.handCurtain (s : State) (c : Fin 16) : CurtainHand → State
  | .nothing => s
  | .demand => s.curtainDemand c
  | .release => s.curtainRelease c

/-- The outcome of a curtain's re-evaluation, before the allocator takes what it hands. -/
def State.evaluated (s : State) (c : Fin 16) : Curtain × CurtainHand :=
  let x := s.doors.curtains.get c
  x.evaluate (s.curtainWanted c) (s.zoneMode x.config.zone == .off)

/-- A curtain re-evaluates its demand (R52). -/
def State.reevaluate (s : State) (c : Fin 16) : State :=
  (s.setCurtain c (s.evaluated c).1).handCurtain c (s.evaluated c).2

/-- A door's curtain, if it has one, re-evaluates its demand. -/
def State.reevaluateOf (s : State) (c : Option (Fin 16)) : State :=
  match c with
  | none => s
  | some c => s.reevaluate c

/-- A curtain's second boundary: the run-on counted down, its end making the curtain IDLE with a release (R53). -/
def State.curtainSecond (s : State) (c : Fin 16) : State :=
  let x := s.doors.curtains.get c
  match x.state, x.remaining with
  | .runOn, some n =>
    if n ≤ 1 then (s.setCurtain c { x with state := .idle, remaining := none }).curtainRelease c
    else s.setCurtain c { x with remaining := some (n - 1) }
  | _, _ => s

/-- Whether a curtain's run-on ends at its next second boundary. -/
def State.runOnEnding (s : State) (c : Fin 16) : Bool :=
  let x := s.doors.curtains.get c
  x.state == .runOn && x.remaining.any (fun n => n ≤ 1)

/-! ### Forecasts (R56, R57) -/

/-- The forecast entry of a door. -/
def State.forecastOf (s : State) (d : Fin 32) : Option Forecast := s.doors.forecasts.find? fun f => f.door = d

/-- A door's forecast entry removed, if there is one. -/
def State.removeForecast (s : State) (d : Fin 32) : State :=
  { s with doors := { s.doors with forecasts := s.doors.forecasts.filter fun f => f.door ≠ d } }

/-- A forecast entry's second boundary: an entry reaching 0 is removed (R57). -/
def State.forecastSecond (s : State) (d : Fin 32) : State :=
  { s with doors := { s.doors with forecasts := s.doors.forecasts.filterMap fun f =>
      if f.door = d then (if f.seconds ≤ 1 then none else some { f with seconds := f.seconds - 1 }) else some f } }

/-- Whether a door's forecast window ends at its next second boundary. -/
def State.windowEnding (s : State) (d : Fin 32) : Bool := (s.forecastOf d).any fun f => f.seconds ≤ 1

/-! ### Accounting of doors (R180) -/

/-- One opening or open-second credited to a zone's current summary. -/
def State.creditZone (s : State) (z : Fin 8) (openings seconds : Nat) : State :=
  let cur := s.accounts.current
  { s with accounts := { s.accounts with current := { cur with zones := cur.zones.modify z fun a =>
      { a with
        openings := satAdd Config.max32 a.openings openings
        openSeconds := satAdd Config.max32 a.openSeconds seconds } } } }

/-! ### Channels -/

/-- A channel initialised (R41): the shift counters are left as they are. -/
def Channel.initialise (x : Channel) : Channel :=
  { x with
    state := .unused, trailer := false, trailerSettled := false, doorPending := none, trailerPending := none,
    interval := 0, lastEdge := none, lastOpen := none, lastClosed := none }

/-- A line's pending change after a scan (R41, R42). `settled` is its settled level, none before the first settlement. -/
def scanPending (settled : Option Bool) (debounce : Nat) (pending : Option Pending) (level : Bool) : Option Pending :=
  match settled, pending with
  | none, none => some ⟨level, debounce⟩
  | none, some p => if p.level = level then some { p with ticks := p.ticks - 1 } else some ⟨level, debounce⟩
  | some l, none => if level = l then none else some ⟨level, debounce⟩
  | some _, some p => if p.level = level then some { p with ticks := p.ticks - 1 } else none

/-- The settled level of a door contact (R41, R42). -/
def Channel.doorSettled (x : Channel) : Option Bool := if x.state = .unused then none else some x.isOpen

/-- The settled level of a trailer sensor (R41, R42). -/
def Channel.trailerLevel (x : Channel) : Option Bool := if x.trailerSettled then some x.trailer else none

/-- A level delivered for a door contact (R42, R152); an unconfigured channel ignores it. -/
def State.deliverDoor (s : State) (d : Fin 32) (level : Bool) : State :=
  let x := s.channel d
  if x.config.configured then
    s.setChannel d { x with doorPending := scanPending x.doorSettled x.config.doorDebounce x.doorPending level }
  else s

/-- A level delivered for a trailer sensor (R42, R152). -/
def State.deliverTrailer (s : State) (d : Fin 32) (level : Bool) : State :=
  let x := s.channel d
  if x.config.configured then
    s.setChannel d { x with trailerPending := scanPending x.trailerLevel x.config.trailerDebounce x.trailerPending level }
  else s

/-- The level a pending change has settled at, when its ticks have run out. -/
def settledAt : Option Pending → Option Bool
  | some ⟨level, 0⟩ => some level
  | _ => none

/-- The settled level of a door contact that waits to be taken. -/
def State.doorDue (s : State) (d : Fin 32) : Option Bool := settledAt (s.channel d).doorPending

/-- The settled level of a trailer sensor that waits to be taken. -/
def State.trailerDue (s : State) (d : Fin 32) : Option Bool := settledAt (s.channel d).trailerPending

/-- The first settlement of a door contact (R41): no edge, no record, no occupancy; a door settled OPEN counts for its
curtain from that moment. -/
def State.firstDoor (s : State) (d : Fin 32) (level : Bool) : State :=
  let x := s.channel d
  let t := s.setChannel d
    { x with state := if level then .opened else .closed, doorPending := none, interval := 0 }
  if level then t.reevaluateOf x.config.curtain else t

/-- The first settlement of a trailer sensor (R41). -/
def State.firstTrailer (s : State) (d : Fin 32) (level : Bool) : State :=
  let x := s.channel d
  s.setChannel d { x with trailer := level, trailerSettled := true, trailerPending := none }

/-- The length of the interval an edge ends, when known (R43). -/
def Channel.known (x : Channel) : Option Nat := x.lastEdge.map fun _ => x.interval

/-- Door activity and an opening handed for a zone (R44, R46). -/
def State.activityOf (s : State) (z : Option (Fin 8)) : State :=
  match z with
  | none => s
  | some z => s.doorActivity z

/-- An opening handed to the Accounting Unit (R44, R180). -/
def State.openingOf (s : State) (z : Option (Fin 8)) : State :=
  match z with
  | none => s
  | some z => s.creditZone z 1 0

/-- A settled edge from CLOSED to OPEN, its seven steps in order (R44). -/
def State.doorOpens (s : State) (d : Fin 32) : State :=
  let x := s.channel d
  let t := s.setChannel d
    { x with
      state := .opened, doorPending := none, lastClosed := x.known, interval := 0, lastEdge := some s.now,
      openings := satAdd Config.max16 x.openings 1 }
  let t := t.capture d .opened x.known
  let t := (t.activityOf x.config.zone).openingOf x.config.zone
  (t.removeForecast d).reevaluateOf x.config.curtain

/-- A settled edge from OPEN or HELD to CLOSED (R45). -/
def State.doorCloses (s : State) (d : Fin 32) : State :=
  let x := s.channel d
  let t := s.setChannel d
    { x with state := .closed, doorPending := none, lastOpen := x.known, interval := 0, lastEdge := some s.now }
  (t.capture d .closed x.known).reevaluateOf x.config.curtain

/-- A settled trailer edge (R46). -/
def State.trailerEdge (s : State) (d : Fin 32) (level : Bool) : State :=
  let x := s.channel d
  let t := s.setChannel d { x with trailer := level, trailerPending := none }
  if level then (t.capture d .trailerArrived none).activityOf x.config.zone
  else t.capture d .trailerLeft none

/-- A door's settlement that waits is taken, whichever it is: the first settlement, or the edge (R42). -/
def State.settleDoor (s : State) (d : Fin 32) : State :=
  match s.doorDue d, (s.channel d).state with
  | none, _ => s
  | some level, .unused => s.firstDoor d level
  | some true, .closed => s.doorOpens d
  | some false, .opened => s.doorCloses d
  | some false, .held => s.doorCloses d
  | some _, _ => s.setChannel d { s.channel d with doorPending := none }

/-- A trailer sensor's settlement that waits is taken (R42). -/
def State.settleTrailer (s : State) (d : Fin 32) : State :=
  match s.trailerDue d, (s.channel d).trailerSettled with
  | none, _ => s
  | some level, false => s.firstTrailer d level
  | some level, true => s.trailerEdge d level

/-! ### Doors left open (R47, R48, R49) -/

/-- Whether an OPEN door with this interval count has reached the long-open limit of the phase in force (R47). -/
def State.reachesLimit (s : State) (count : Nat) : Bool :=
  let limit := (s.paramsOf s.phase).longOpen
  limit != 0 && decide (60 * limit ≤ count)

/-- An OPEN door whose count reaches the limit becomes HELD, with its record and flag (R47). -/
def State.compareDoor (s : State) (d : Fin 32) : State :=
  let x := s.channel d
  if x.state = .opened ∧ s.reachesLimit x.interval then
    ((s.setChannel d { x with state := .held }).capture d .held none).raise .doorHeld
  else s

/-- Whether a door's second boundary would make it HELD. -/
def State.holdingOpen (s : State) (d : Fin 32) : Bool :=
  let x := s.channel d
  x.state == .opened && s.reachesLimit (satAdd Config.max16 x.interval 1)

/-- One door-second added to a zone's current slot (R49). -/
def State.addOpenSecond (s : State) (z : Fin 8) : State :=
  { s with doors := { s.doors with rings := s.doors.rings.modify z fun r =>
      { r with current := satAdd Config.max16 r.current 1 } } }

/-- An open door's second credited: its tally, its zone's ring and the summary (R48, R49, R180). -/
def State.openSecond (s : State) (d : Fin 32) : State :=
  let x := s.channel d
  if x.isOpen then
    let t := s.setChannel d
      { x with openSeconds := satAdd Config.max32 x.openSeconds 1, longest := max x.longest x.interval }
    match x.config.zone with
    | none => t
    | some z => (t.addOpenSecond z).creditZone z 0 1
  else s

/-- A door channel's second boundary (R43, R47, R48, R49). -/
def State.doorSecond (s : State) (d : Fin 32) : State :=
  let x := s.channel d
  if x.state = .unused then s
  else ((s.setChannel d { x with interval := satAdd Config.max16 x.interval 1 }).compareDoor d).openSecond d

/-- Every ring's minute boundary (R49). -/
def State.ringMinute (s : State) : State :=
  { s with doors := { s.doors with rings := s.doors.rings.map fun r =>
      ⟨0, r.completed.shiftIn r.current⟩ } }

/-- The zone open time D (R49). -/
def State.openTime (s : State) (z : Fin 8) : Nat := (s.doors.rings.get z).completed.sum

/-- The trailer count of a zone (R50). -/
def State.trailerCount (s : State) (z : Fin 8) : Nat :=
  (s.doors.channels.rows.filter fun x => x.config.configured && x.config.zone == some z && x.trailer).length

/-- The forecast mark of a zone (R50). -/
def State.forecastMark (s : State) (z : Fin 8) : Bool :=
  s.doors.forecasts.any fun f => (s.channel f.door).config.zone == some z

/-- Every channel's shift tally set to 0 (R48). -/
def State.zeroTallies (s : State) : State :=
  { s with doors := { s.doors with channels := s.doors.channels.map fun x =>
      { x with openings := 0, openSeconds := 0, longest := 0 } } }

/-- Every OPEN door compared at once (R47). DESIGN CHOICE: in ascending door number, which orders their HELD records
(assumption 42). -/
def State.compareDoors (s : State) : State := s.forEach 32 fun d s => s.compareDoor d

/-- A transition handed to the Door Unit (R47, R48, R60). `before` is the phase that was in force. -/
def State.doorTransition (s : State) (before : Phase) (shiftStart : Bool) : State :=
  let s := s.compareDoors
  let s := if shiftStart then s.zeroTallies else s
  if busyClass before ∧ busyClass s.phase = false ∧ s.doors.quiet < s.doors.busy then s.batchCheck else s

/-! ### Mode events (R66, R125) -/

/-- A mode event taken by the Door Unit (R66). DESIGN CHOICE: the zone's curtains re-evaluate in ascending curtain number
(assumption 41). -/
def State.doorMode (s : State) (z : Fin 8) : State :=
  let s :=
    if s.zoneMode z = .auto then s
    else { s with doors := { s.doors with forecasts := s.doors.forecasts.filter fun f =>
        (s.channel f.door).config.zone ≠ some z } }
  s.forEach 16 fun c s => if (s.doors.curtains.get c).config.zone = z then s.reevaluate c else s

/-- A mode event handed for a zone whose mode has changed, to the Door Unit and to the allocator (R86). DESIGN CHOICE: the
Door Unit takes it first (assumption 48). -/
def State.modeEvent (s : State) (z : Fin 8) : State :=
  let s := s.doorMode z
  if s.zoneMode z = .off then s.zoneOff z else s

/-! ### Calls -/

/-- DOOR_CONFIG in the Door Unit (R64). DESIGN CHOICE: a call that is both out of range and active is answered RANGE
(assumption 66). -/
def ownDoorConfig (a : DoorConfigArgs) (s : State) : Taken :=
  match row 32 a.door, rowOrNone 8 a.zone, rowOrNone 16 a.curtain with
  | some d, some zone, some curtain =>
    let x := s.channel d
    let zoneIsOff : Bool := match x.config.zone with
      | none => true
      | some z => s.zoneMode z == .off
    if x.state = .unused ∨ zoneIsOff then
      let debounce := min 31 a.doorDebounce.toNat
      let c : DoorConfig := ⟨a.configured, zone, curtain, debounce, a.trailerDebounce.toNat, a.capture⟩
      let y := if a.configured then { x.initialise with config := c }
        else { x with
          config := c, state := .unused, trailer := false, trailerSettled := false, doorPending := none,
          trailerPending := none }
      { state := (s.removeForecast d).setChannel d y
        reply := ⟨okOrClamped (debounce != a.doorDebounce.toNat), .doorConfig c⟩
        after := fun s => (s.reevaluateOf x.config.curtain).reevaluateOf curtain }
    else .turnedAway s .active
  | _, _, _ => .turnedAway s .range

/-- DOOR_READ (R65). -/
def ownDoorRead (a : IndexArgs) (s : State) : Taken :=
  match row 32 a.index with
  | none => .turnedAway s .range
  | some d =>
    let x := s.channel d
    .report s (.door
      { channel := x
        forecast := (s.forecastOf d).map fun f => (f.seconds, endTime s.now f.seconds)
        curtain := x.config.curtain.map fun c =>
          ((s.doors.curtains.get c).state, (s.doors.curtains.get c).granted) })

/-- CURTAIN_CONFIG in the Door Unit (R55): the answer carries the record as it stands once the curtain has re-evaluated and the
allocator has taken what it hands, so that it shows a grant made at once (R122; DEDUCED, assumption 21). DESIGN CHOICE: a call
that is both out of range and active is answered RANGE (assumption 66). -/
def ownCurtainConfig (a : CurtainConfigArgs) (s : State) : Taken :=
  match row 16 a.curtain, rowOrNone 8 a.zone with
  | some c, some zone =>
    let x := s.doors.curtains.get c
    if a.configured.isNone ∧ zone.isNone ∧ a.runOn.isNone then .report s (.curtain x)
    else if x.state ≠ .idle then .turnedAway s .active
    else
      let runOn := a.runOn.map fun v => min 120 v.toNat
      let t := State.reevaluate (s.setCurtain c
        { x with config := ⟨a.configured.getD x.config.configured, zone.getD x.config.zone, runOn.getD x.config.runOn⟩ }) c
      { state := t
        reply := ⟨okOrClamped (a.runOn.any fun v => 120 < v.toNat), .curtain (t.doors.curtains.get c)⟩ }
  | _, _ => .turnedAway s .range

/-- The phases in which a forecast is taken (R56). -/
def forecastPhase : Phase → Bool
  | .preheat | .work | .changeover => true
  | _ => false

/-- Whether a forecast for a door can be used as the call is taken (R56). -/
def State.forecastUsable (s : State) (d : Fin 32) : Bool :=
  let x := s.channel d
  let zoneReady : Bool := match x.config.zone with
    | none => false
    | some z => s.zoneMode z == .auto && (s.climate.zones.get z).config.boost != 0
  x.config.configured && zoneReady && forecastPhase s.phase
    && ((s.forecastOf d).isSome || decide (s.doors.forecasts.length < Config.forecastEntries))

/-- ARRIVAL_FORECAST (R56). -/
def ownArrivalForecast (a : ArrivalForecastArgs) (s : State) : Taken :=
  match row 32 a.door with
  | none => .turnedAway s .range
  | some d =>
    if s.forecastUsable d then
      let within := clampNat 1 30 a.within.toNat
      let t := s.removeForecast d
      { state := { t with doors := { t.doors with forecasts := t.doors.forecasts ++ [⟨d, 60 * within⟩] } }
        reply := ⟨okOrClamped (within != a.within.toNat), .windowEnd (endTime s.now (60 * within))⟩ }
    else .turnedAway s .dropped

/-- DOORQ_THRESHOLDS (R59): the batch check is made at once when the threshold in force is lowered, before the answer is
offered (DESIGN CHOICE, assumption 45). -/
def ownDoorqThresholds (a : DoorqThresholdsArgs) (s : State) : Taken :=
  let busy := (a.busy.map fun v => clampNat 1 64 v.toNat).getD s.doors.busy
  let quiet := (a.quiet.map fun v => clampNat 1 64 v.toNat).getD s.doors.quiet
  let moved := a.busy.any (fun v => v.toNat != busy) || a.quiet.any (fun v => v.toNat != quiet)
  let t : State := { s with doors := { s.doors with busy := busy, quiet := quiet } }
  { state := if t.threshold < s.threshold then t.batchCheck else t
    reply := ⟨okOrClamped moved, .thresholds busy quiet⟩ }

/-- DOORQ_NOTICES (R61): the batch check is made at once when the notices are turned on, before the answer is offered (DESIGN
CHOICE, assumption 45). DESIGN CHOICE: a call that finds the notices on and leaves them on makes no check (assumption 65). -/
def ownDoorqNotices (a : OnOffArgs) (s : State) : Taken :=
  let t : State := { s with doors := { s.doors with notices := a.on } }
  { state := if a.on ∧ s.doors.notices = false then t.batchCheck else t, reply := replyOnly .ok }

/-- DOORQ_READ (R62): the records are removed only when the answer joins the outbound queue. -/
def ownDoorqRead (l : Link) (a : DoorqReadArgs) (s : State) : Taken :=
  let n := min Config.batchRecords a.count.toNat
  let left := s.doors.queue.drop n
  { state := if s.answerJoins l then { s with doors := { s.doors with queue := left } } else s
    reply := ⟨.ok, .doorRecords (s.doors.queue.take n) left.length⟩ }

/-- DOORQ_FLUSH (R63). -/
def ownDoorqFlush (_ : Unit) (s : State) : Taken :=
  { state := { s with doors := { s.doors with queue := [] } }, reply := ⟨.ok, .discarded s.doors.queue.length⟩ }

/-! ### Meanings of the calls -/

/-- DOOR_CONFIG (R64). -/
def execDoorConfig (o : Origin) (b : Body DoorConfigArgs) (s : State) : Result := s.runCall .doorConfig o b ownDoorConfig

/-- DOOR_READ (R65). -/
def execDoorRead (o : Origin) (b : Body IndexArgs) (s : State) : Result := s.runCall .doorRead o b ownDoorRead

/-- CURTAIN_CONFIG (R55). -/
def execCurtainConfig (o : Origin) (b : Body CurtainConfigArgs) (s : State) : Result :=
  s.runCall .curtainConfig o b ownCurtainConfig

/-- ARRIVAL_FORECAST (R56). -/
def execArrivalForecast (o : Origin) (b : Body ArrivalForecastArgs) (s : State) : Result :=
  s.runCall .arrivalForecast o b ownArrivalForecast

/-- DOORQ_THRESHOLDS (R59). -/
def execDoorqThresholds (o : Origin) (b : Body DoorqThresholdsArgs) (s : State) : Result :=
  s.runCall .doorqThresholds o b ownDoorqThresholds

/-- DOORQ_NOTICES (R61). -/
def execDoorqNotices (o : Origin) (b : Body OnOffArgs) (s : State) : Result := s.runCall .doorqNotices o b ownDoorqNotices

/-- DOORQ_READ (R62). -/
def execDoorqRead (o : Origin) (b : Body DoorqReadArgs) (s : State) : Result :=
  s.runCall .doorqRead o b (ownDoorqRead o.link)

/-- DOORQ_FLUSH (R63). -/
def execDoorqFlush (o : Origin) (b : Body Unit) (s : State) : Result := s.runCall .doorqFlush o b ownDoorqFlush

/-! ### Meanings of the settlements (R41 to R46) -/

/-- FIRST_SETTLEMENT (R41): the first settlement that waits on a door's contact or trailer sensor. -/
def execFirstSettlement (d : Fin 32) (k : DoorSensor) (s : State) : Result :=
  s.run fun s =>
    match k with
    | .contact => if (s.channel d).state = .unused then s.settleDoor d else s
    | .trailer => if (s.channel d).trailerSettled = false then s.settleTrailer d else s

/-- DOOR_OPENED (R44): the opening edge that waits on a CLOSED door. -/
def execDoorOpened (d : Fin 32) (s : State) : Result :=
  s.run fun s => if s.doorDue d = some true ∧ (s.channel d).state = .closed then s.doorOpens d else s

/-- DOOR_CLOSED (R45): the closing edge that waits on an OPEN or HELD door. -/
def execDoorClosed (d : Fin 32) (s : State) : Result :=
  s.run fun s => if s.doorDue d = some false ∧ (s.channel d).isOpen then s.doorCloses d else s

/-- SETTLED_TRAILER_EDGE (R46): the trailer edge that waits. -/
def execSettledTrailerEdge (d : Fin 32) (s : State) : Result :=
  s.run fun s => if (s.channel d).trailerSettled then s.settleTrailer d else s

end Sys2Proof.Machine
end

