-- ==== Sys2Proof/Machine/Climate.lean ====
section
/-! DEFINITION. The Zone Climate Engine (R81 to R105): the control cycle with its arithmetic, zone modes, the demand set,
and the calls that configure and read zones. -/

namespace Sys2Proof.Machine

/-! ### The inputs of a cycle (R90) -/

/-- What a cycle takes for one zone, once, at its start. -/
structure ZoneInputs where
  phase        : Phase
  setpoint     : Nat
  setpointWork : Nat
  vent         : Nat
  fallback     : Nat
  temperature  : Reading
  outdoor      : Reading
  gas          : Reading
  openTime     : Nat
  trailers     : Nat
  forecast     : Bool
  granted      : Nat
  g1           : Nat
  g2           : Nat
  g3           : Nat
deriving DecidableEq, Repr

/-- The inputs as they stand when a cycle starts. -/
def State.zoneInputs (s : State) (z : Fin 8) : ZoneInputs where
  phase        := s.phase
  setpoint     := (s.paramsOf s.phase).setpoints.get z
  setpointWork := (s.paramsOf .work).setpoints.get z
  vent         := (s.paramsOf s.phase).vent
  fallback     := (s.paramsOf s.phase).fallback
  temperature  := s.sensors.reading (s.sensors.map.temperature.get z)
  outdoor      := s.sensors.outdoorReading
  gas          := s.sensors.reading (s.sensors.map.gas.get z)
  openTime     := s.openTime z
  trailers     := s.trailerCount z
  forecast     := s.forecastMark z
  granted      := (s.budget.zones.get z).fans
  g1           := s.climate.g1
  g2           := s.climate.g2
  g3           := s.climate.g3

/-- The temperature code T. -/
def ZoneInputs.code (i : ZoneInputs) : Nat := i.temperature.value.getD 0
/-- The outdoor code T_out. -/
def ZoneInputs.outdoorCode (i : ZoneInputs) : Nat := i.outdoor.value.getD 0
/-- The gas in ppm. -/
def ZoneInputs.ppm (i : ZoneInputs) : Nat := i.gas.value.getD 0

/-! ### The arithmetic of a zone (R92 to R100) -/

/-- The temperature difference ΔT (R92). -/
def ZoneInputs.deltaT (i : ZoneInputs) : Nat := min 80 (i.code - i.outdoorCode)

/-- The door loss L (R92). -/
def doorLoss (openTime coefficient deltaT : Nat) : Nat := min 255 (openTime * coefficient * deltaT / 1048576)

/-- The fan make-up U (R93). -/
def ZoneInputs.makeUp (i : ZoneInputs) (c : ZoneConfig) : Nat :=
  if i.outdoorCode < i.code then i.granted * c.makeUp else 0

/-- The forecast boost B (R93), 0 in a zone that is DEGRADED (R98). -/
def ZoneInputs.boost (i : ZoneInputs) (c : ZoneConfig) (mode : ZoneMode) : Nat :=
  if mode = .auto ∧ i.forecast then c.boost else 0

/-- The error E (R92). -/
def ZoneInputs.error (i : ZoneInputs) : Int := (i.setpoint : Int) - (i.code : Int)

/-- The effective error E' (R93). -/
def ZoneInputs.effective (i : ZoneInputs) (c : ZoneConfig) (mode : ZoneMode) : Int :=
  clampInt (-255) 255
    (i.error + (doorLoss i.openTime c.doorCoefficient i.deltaT : Int) + (i.makeUp c : Int) + (i.boost c mode : Int))

/-- The plain request h' (R94). -/
def ZoneConfig.plain (c : ZoneConfig) (e : Int) : Nat :=
  largestWhere (fun i => ((i * c.step : Nat) : Int) ≤ e) c.heaterStages

/-- The heat request h: the plain request with hysteresis against the previous request (R94). -/
def ZoneConfig.request (c : ZoneConfig) (previous : Nat) (e : Int) : Nat :=
  let plain := c.plain e
  if previous ≤ plain then plain
  else
    max plain
      (largestWhere (fun j => plain < j ∧ ((j * c.step : Nat) : Int) - (c.hysteresis : Int) < e)
        (min previous c.heaterStages))

/-- The gas stages of a usable reading (R95). -/
def gasStages (g1 g2 g3 ppm : Nat) : Nat :=
  if ppm < g1 then 0 else if ppm < g2 then 1 else if ppm < g3 then 2 else 3

/-- The gas stages assumed while the gas source is lost (R99). -/
def lostGasStages : Phase → Nat
  | .setback | .preheat => 0
  | .work | .breakTime | .changeover | .cleandown => 1

/-- v_gas (R95, R99, R100). -/
def ZoneInputs.gasStages (i : ZoneInputs) : Nat :=
  if i.gas.usable then Sys2Proof.Machine.gasStages i.g1 i.g2 i.g3 i.ppm else lostGasStages i.phase

/-- The trailer stages v_trl (R97). -/
def ZoneInputs.trailerStages (i : ZoneInputs) (c : ZoneConfig) : Nat :=
  if busyClass i.phase then min 3 (ceilDiv' i.trailers c.trailersPerStage) else 0

/-- The fan request v of an AUTO or DEGRADED zone (R97). -/
def ZoneInputs.fanRequest (i : ZoneInputs) (c : ZoneConfig) : Nat :=
  min c.fanStages (max i.gasStages (max (i.trailerStages c) i.vent))

/-- The gas floor f_g (R97). -/
def ZoneInputs.gasFloor (i : ZoneInputs) (c : ZoneConfig) : Nat := min c.fanStages i.gasStages

/-- The working figures every zone that is not OFF reports: the inputs the cycle took, and v_gas (R105). -/
def ZoneInputs.taken (i : ZoneInputs) : Working :=
  { Working.absent with
    setpoint := some i.setpoint, setpointWork := some i.setpointWork, temperature := some i.temperature,
    outdoor := some i.outdoor, gas := some i.gas, openTime := some i.openTime, trailers := some i.trailers,
    forecast := some i.forecast, grantedFans := some i.granted, gasStages := some i.gasStages }

/-- The results of a zone in AUTO, or DEGRADED with its temperature source usable, less the deviation share. -/
def ZoneInputs.measured (i : ZoneInputs) (c : ZoneConfig) (mode : ZoneMode) (previous : Nat) : ZoneResults where
  effective := some (i.effective c mode)
  heat      := c.request previous (i.effective c mode)
  fans      := i.fanRequest c
  gasFloor  := i.gasFloor c
  share     := if mode = .auto then some i.error.natAbs else none
  working   :=
    { i.taken with
      error := some i.error, deltaT := some i.deltaT
      doorLoss := some (doorLoss i.openTime c.doorCoefficient i.deltaT), makeUp := some (i.makeUp c)
      boost := some (i.boost c mode), plainRequest := some (c.plain (i.effective c mode))
      trailerStages := some (i.trailerStages c) }

/-- The results of a zone DEGRADED with its temperature source lost (R98). -/
def ZoneInputs.unmeasured (i : ZoneInputs) (c : ZoneConfig) : ZoneResults where
  effective := none
  heat      := min c.heaterStages i.fallback
  fans      := i.fanRequest c
  gasFloor  := i.gasFloor c
  share     := none
  working   := { i.taken with trailerStages := some (i.trailerStages c) }

/-- The mode a cycle settles for a zone (R85). -/
def ZoneInputs.mode (i : ZoneInputs) : ZoneMode → ZoneMode
  | .auto => if i.temperature.usable && i.gas.usable then .auto else .degraded
  | .degraded => if i.temperature.usable && i.gas.usable then .auto else .degraded
  | .off => .off
  | .manual => .manual

/-- A zone's results under its mode (R83). -/
def Zone.resultsIn (x : Zone) (i : ZoneInputs) : ZoneMode → ZoneResults
  | .off => .initial
  | .manual => ⟨none, min x.manualHeat x.config.heaterStages, min x.manualFans x.config.fanStages,
      i.gasFloor x.config, none, i.taken⟩
  | .auto => i.measured x.config .auto x.results.heat
  | .degraded =>
    if i.temperature.usable then i.measured x.config .degraded x.results.heat else i.unmeasured x.config

/-- A zone as a cycle leaves it: its mode settled, then its results replaced (R91). -/
def Zone.cycle (x : Zone) (i : ZoneInputs) : Zone :=
  { x with mode := i.mode x.mode, results := x.resultsIn i (i.mode x.mode) }

/-- A zone's term of the deficit: AUTO zones alone (R103). -/
def Zone.deficit (x : Zone) (i : ZoneInputs) : Nat := if x.mode = .auto then i.setpointWork - i.code else 0

/-! ### The control cycle (R91) -/

/-- The zones as a cycle leaves them. -/
def State.cycledZones (s : State) : Table 8 Zone := s.climate.zones.mapIdx fun z x => x.cycle (s.zoneInputs z)

/-- The engine's records as a cycle leaves them (R88, R91, R102, R103). -/
def State.cycledClimate (s : State) : Climate :=
  let zones := s.cycledZones
  { s.climate with
    zones := zones
    timer := 0
    cycles := satAdd Config.max32 s.climate.cycles 1
    deviation := (zones.map fun x => x.results.share.getD 0).sum
    deficit := (zones.mapIdx fun z x => x.deficit (s.zoneInputs z)).sum }

/-- A zone that entered DEGRADED delivers ZONE_DEGRADED (R85). -/
def State.reportDegraded (s before : State) (z : Fin 8) : State :=
  s.raiseIf (s.zoneMode z == .degraded && before.zoneMode z != .degraded) .zoneDegraded

/-- DEVIATION delivered when the deviation is at or above a non-zero limit outside SETBACK (R102). -/
def State.reportDeviation (s : State) : State :=
  s.raiseIf
    (s.climate.deviationLimit != 0 && decide (s.climate.deviationLimit ≤ s.climate.deviation) && s.phase != .setback)
    .deviation

/-- The demand set the engine's results make (R104). -/
def Climate.demandSet (c : Climate) : Table 8 ZoneDemand :=
  c.zones.map fun x => ⟨x.mode, x.results.effective, x.results.heat, x.results.fans, x.results.gasFloor⟩

/-- A control cycle, one event: the results of all zones from the inputs as they stand at its start, the set events,
the mode events of the zones whose mode changed, and last the demand set (R89, R91). DESIGN CHOICE: the mode events are
handed in ascending zone number (assumption 48). -/
def State.cycle (s : State) : State :=
  let t : State := { s with climate := s.cycledClimate }
  let t := (t.forEach 8 fun z t => t.reportDegraded s z).reportDeviation
  let t := t.forEach 8 fun z t => if t.zoneMode z = s.zoneMode z then t else t.modeEvent z
  t.takeDemand t.climate.demandSet

/-- The engine's second boundary (R88). DESIGN CHOICE: with the cycle setting at 0 every boundary brings the timer to the
period, so one taken after another cause's cycle starts a cycle by R88, where R89 would have it start nothing
(assumption 46). -/
def State.cycleSecond (s : State) : State :=
  let timer := s.climate.timer + 1
  if s.climate.setting + 1 ≤ timer then s.cycle
  else { s with climate := { s.climate with timer := timer } }

/-- Whether the cycle timer reaches the period at the engine's next second boundary. -/
def State.cycleEnding (s : State) : Bool := s.climate.setting ≤ s.climate.timer

/-! ### Calls -/

def State.setZone (s : State) (z : Fin 8) (x : Zone) : State :=
  { s with climate := { s.climate with zones := s.climate.zones.set z x } }

/-- The configuration ZONE_CONFIG stores, every value brought into range (R82). -/
def storedConfig (a : ZoneConfigArgs) (startMode : StartMode) : ZoneConfig :=
  let step := clampNat 1 64 a.step.toNat
  { heaterStages := a.heaterStages.toNat, fanStages := a.fanStages.toNat, step := step
    hysteresis := min step a.hysteresis.toNat, doorCoefficient := a.doorCoefficient.toNat
    makeUp := min 31 a.makeUp.toNat, boost := min 20 a.boost.toNat
    setpointLow := a.setpointLow.toNat, setpointHigh := a.setpointHigh.toNat
    bandLow := clampNat a.setpointLow.toNat a.setpointHigh.toNat a.bandLow.toNat
    bandHigh := clampNat a.setpointLow.toNat a.setpointHigh.toNat a.bandHigh.toNat
    trailersPerStage := clampNat 1 8 a.trailersPerStage.toNat, startMode := startMode }

/-- Whether a stored configuration differs from what ZONE_CONFIG carried. -/
def configMoved (a : ZoneConfigArgs) (c : ZoneConfig) : Bool :=
  c.step != a.step.toNat || c.hysteresis != a.hysteresis.toNat || c.makeUp != a.makeUp.toNat
    || c.boost != a.boost.toNat || c.bandLow != a.bandLow.toNat || c.bandHigh != a.bandHigh.toNat
    || c.trailersPerStage != a.trailersPerStage.toNat

/-- The cases in which ZONE_CONFIG is refused RANGE, its zone and start mode apart (R82). -/
def configOutOfRange (a : ZoneConfigArgs) : Bool :=
  decide (4 < a.heaterStages.toNat) || decide (3 < a.fanStages.toNat)
    || decide (a.setpointHigh.toNat < a.setpointLow.toNat) || decide (a.bandHigh.toNat < a.bandLow.toNat)

/-- The cases in which ZONE_CONFIG is refused ACTIVE (R82). -/
def State.zoneInUse (s : State) (z : Fin 8) (heaters fans : Nat) : Bool :=
  let d := s.budget.demandOf z
  let g := s.budget.zones.get z
  !(s.zoneMode z == .off || s.zoneMode z == .manual)
    || decide (heaters < g.heat) || decide (heaters < d.heat)
    || decide (fans < g.fans) || decide (fans < d.fans) || decide (fans < d.gasFloor)

/-- A limits event (R25): a zone's setpoint clamped in each of the six records. -/
def State.clampSetpoints (s : State) (z : Fin 8) : State :=
  { s with calendar := { s.calendar with params := s.calendar.params.map fun p =>
      { p with setpoints := p.setpoints.modify z ((s.climate.zones.get z).config.clampSetpoint) } } }

/-- ZONE_CONFIG (R82). DESIGN CHOICE: a call that is both out of range and active is answered RANGE (assumption 66). -/
def ownZoneConfig (a : ZoneConfigArgs) (s : State) : Taken :=
  match row 8 a.zone, a.startMode with
  | some z, some startMode =>
    if configOutOfRange a then .turnedAway s .range
    else if s.zoneInUse z a.heaterStages.toNat a.fanStages.toNat then .turnedAway s .active
    else
      let x := s.climate.zones.get z
      let c := storedConfig a startMode
      let limitsChanged := x.config.setpointLow != c.setpointLow || x.config.setpointHigh != c.setpointHigh
      { state := s.setZone z
          { x with
            config := c, manualHeat := min x.manualHeat c.heaterStages, manualFans := min x.manualFans c.fanStages }
        reply := ⟨okOrClamped (configMoved a c), .zoneConfig c⟩
        after := fun s => (if limitsChanged then s.clampSetpoints z else s).cycle }
  | _, _ => .turnedAway s .range

/-- The modes ZONE_MODE may ask for (R84). -/
def mayAsk : ZoneMode → Bool
  | .degraded => false
  | .off | .auto | .manual => true

/-- ZONE_MODE (R84): the answer carries the mode before the cycle that the call starts. -/
def ownZoneMode (a : ZoneModeArgs) (s : State) : Taken :=
  match row 8 a.zone, a.mode with
  | some z, some m =>
    if mayAsk m then
      let x := s.climate.zones.get z
      if x.mode = m ∨ (x.mode = .degraded ∧ m = .auto) then .report s (.zoneMode x.mode)
      else
        { state := s.setZone z { x with mode := m }, reply := ⟨.ok, .zoneMode m⟩
          after := fun s => (s.modeEvent z).cycle }
    else .turnedAway s .range
  | _, _ => .turnedAway s .range

/-- ZONE_MANUAL (R87). -/
def ownZoneManual (a : ZoneManualArgs) (s : State) : Taken :=
  match row 8 a.zone with
  | none => .turnedAway s .range
  | some z =>
    let x := s.climate.zones.get z
    let heat := min x.config.heaterStages a.heat.toNat
    let fans := min x.config.fanStages a.fans.toNat
    { state := s.setZone z { x with manualHeat := heat, manualFans := fans }
      reply := ⟨okOrClamped (heat != a.heat.toNat || fans != a.fans.toNat), .zoneManual heat fans⟩ }

/-- CYCLE_PERIOD (R88). -/
def ownCyclePeriod (a : CyclePeriodArgs) (s : State) : Taken :=
  let setting := (a.setting.map fun v => min 59 v.toNat).getD s.climate.setting
  { state := { s with climate := { s.climate with setting := setting } }
    reply := ⟨okOrClamped (a.setting.any fun v => 59 < v.toNat), .cycle setting s.climate.timer⟩ }

/-- CLIMATE_SETTINGS (R96). -/
def ownClimateSettings (a : ClimateSettingsArgs) (s : State) : Taken :=
  let c := s.climate
  let w1 := (a.g1.map BitVec.toNat).getD c.g1
  let w2 := (a.g2.map BitVec.toNat).getD c.g2
  let w3 := (a.g3.map BitVec.toNat).getD c.g3
  let wd := (a.deviationLimit.map BitVec.toNat).getD c.deviationLimit
  let g1 := min 998 w1
  let g2 := max (g1 + 1) (min 999 w2)
  let g3 := max (g2 + 1) (min 1000 w3)
  let limit := min 2040 wd
  { state := { s with climate := { c with g1 := g1, g2 := g2, g3 := g3, deviationLimit := limit } }
    reply := ⟨okOrClamped (g1 != w1 || g2 != w2 || g3 != w3 || limit != wd), .climate g1 g2 g3 limit⟩ }

/-- ZONE_READ (R105). -/
def ownZoneRead (a : IndexArgs) (s : State) : Taken :=
  match row 8 a.index with
  | none => .turnedAway s .range
  | some z =>
    let c := s.climate
    .report s (.zone ⟨c.zones.get z, c.deviation, c.deficit, c.timer, c.setting + 1, c.cycles⟩)

/-! ### Meanings -/

/-- ZONE_CONFIG (R82). -/
def execZoneConfig (o : Origin) (b : Body ZoneConfigArgs) (s : State) : Result := s.runCall .zoneConfig o b ownZoneConfig

/-- ZONE_MODE (R84, R86). -/
def execZoneMode (o : Origin) (b : Body ZoneModeArgs) (s : State) : Result := s.runCall .zoneMode o b ownZoneMode

/-- ZONE_MANUAL (R87). -/
def execZoneManual (o : Origin) (b : Body ZoneManualArgs) (s : State) : Result := s.runCall .zoneManual o b ownZoneManual

/-- CYCLE_PERIOD (R88). -/
def execCyclePeriod (o : Origin) (b : Body CyclePeriodArgs) (s : State) : Result :=
  s.runCall .cyclePeriod o b ownCyclePeriod

/-- CLIMATE_SETTINGS (R96, R102). -/
def execClimateSettings (o : Origin) (b : Body ClimateSettingsArgs) (s : State) : Result :=
  s.runCall .climateSettings o b ownClimateSettings

/-- ZONE_READ (R105). -/
def execZoneRead (o : Origin) (b : Body IndexArgs) (s : State) : Result := s.runCall .zoneRead o b ownZoneRead

end Sys2Proof.Machine
end

