-- ==== Sys2Proof/Machine/Accounting.lean ====
section
/-! DEFINITION. The Accounting Unit (R178 to R182): the second boundary, the rollover of the shift summary and
SHIFT_READ. The door openings and open-seconds handed to it are credited in Machine/Doors.lean (R180). -/

namespace Sys2Proof.Machine

/-- A zone's stage-seconds credited (R179). -/
def ZoneAccount.credit (a : ZoneAccount) (heat fans : Nat) : ZoneAccount :=
  { a with heatSeconds := satAdd Config.max32 a.heatSeconds heat, fanSeconds := satAdd Config.max32 a.fanSeconds fans }

/-- The current summary after one more second of a phase and an allocator's grants (R179). -/
def Summary.second (x : Summary) (phase : Phase) (a : Allocator) : Summary :=
  { x with
    zones := x.zones.mapIdx fun z c => c.credit (a.zones.get z).heat (a.zones.get z).fans
    phaseSeconds := x.phaseSeconds.modify (phaseIndex phase) fun n => satAdd Config.max32 n 1
    energy := satAdd Config.max32 x.energy a.total
    peak := max x.peak (min Config.max32 a.total)
    overcap := if a.capInForce < a.reserved then satAdd Config.max32 x.overcap 1 else x.overcap }

/-- The unit's second boundary (R179). -/
def State.accountSecond (s : State) : State :=
  { s with accounts := { s.accounts with current := s.accounts.current.second s.phase s.budget } }

/-- A summary as an answer or a notice carries it (R178, R179). -/
def Summary.report (x : Summary) : SummaryReport := ⟨x, x.phaseSeconds.sum, x.energy / 3600⟩

/-- A rollover (R181): the current summary frozen and reported, and a new one begun at the transition's entered time. -/
def State.rollover (s : State) : State :=
  let frozen := s.accounts.current
  { s.notify .supervisor (.shiftSummary frozen.report) with
    accounts := ⟨.begin s.calendar.record.entered true s.phase, some frozen⟩ }

/-- SHIFT_READ (R182). -/
def ownShiftRead (a : ShiftReadArgs) (s : State) : Taken :=
  match a.which with
  | none => .turnedAway s .range
  | some .current => .report s (.shift (some s.accounts.current.report))
  | some .previous => .report s (.shift (s.accounts.previous.map Summary.report))

/-- SHIFT_READ (R182). -/
def execShiftRead (o : Origin) (b : Body ShiftReadArgs) (s : State) : Result := s.runCall .shiftRead o b ownShiftRead

end Sys2Proof.Machine
end

