-- ==== Sys2Proof/Machine/BudgetCalls.lean ====
section
/-! DEFINITION. The Load Allocator's calls and its second boundary (R107 to R113, R127). -/

namespace Sys2Proof.Machine

/-! ### The supervisor cap -/

/-- The supervisor cap replaced or removed. -/
def State.setCap (s : State) (c : Option SupervisorCap) : State :=
  { s with budget := { s.budget with supCap := c } }

/-- The cap record's second boundary (R108): a cap whose count reaches 0 expires, and a pass follows when that changes
the cap in force (R109). -/
def State.capSecond (s : State) : State :=
  match s.budget.supCap with
  | some ⟨units, some n⟩ =>
    if n ≤ 1 then (s.setCap none).passIfCapChanged s else s.setCap (some ⟨units, some (n - 1)⟩)
  | _ => s

/-- Whether the supervisor cap expires at its next second boundary. -/
def State.capEnding (s : State) : Bool :=
  match s.budget.supCap with
  | some ⟨_, some n⟩ => decide (n ≤ 1)
  | _ => false

/-- A count of 60 for each minute, none for 0 minutes (R15, R107). -/
def secondsOf (minutes : Nat) : Option Nat := if minutes = 0 then none else some (60 * minutes)

/-- CAP_SET (R107). -/
def ownCapSet (a : CapSetArgs) (s : State) : Taken :=
  let minutes := min 1440 a.minutes.toNat
  let t := s.setCap (some ⟨a.units.toNat, secondsOf minutes⟩)
  { state := t
    reply := ⟨okOrClamped (minutes != a.minutes.toNat),
      .capSet a.units.toNat t.budget.capInForce ((secondsOf minutes).map (endTime s.now))⟩
    after := fun t => t.passIfCapChanged s }

/-- CAP_CLEAR (R108). -/
def ownCapClear (_ : Unit) (s : State) : Taken :=
  let t := s.setCap none
  { state := t, reply := ⟨.ok, .capClear t.budget.capInForce⟩, after := fun t => t.passIfCapChanged s }

/-! ### Ratings -/

/-- One item of RATINGS_WRITE written, none when it names a rating that does not exist (R111). -/
def Ratings.write (r : Ratings) : RatingItem → Option Ratings
  | .heater zone stage units =>
    match row 8 zone, row 4 (stage - 1) with
    | some z, some i => some { r with heaters := r.heaters.modify z fun h => h.set i units.toNat }
    | _, _ => none
  | .fan zone units => (row 8 zone).map fun z => { r with fans := r.fans.set z units.toNat }
  | .curtain curtain units => (row 16 curtain).map fun c => { r with curtains := r.curtains.set c units.toNat }
  | .group group units => (row 24 group).map fun g => { r with groups := r.groups.set g units.toNat }
  | .noSuchRating => none

/-- Every item written in order, a later item taking effect last (R111). -/
def Ratings.writeAll : List RatingItem → Ratings → Option Ratings
  | [], r => some r
  | i :: rest, r => (r.write i).bind (Ratings.writeAll rest)

/-- RATINGS_WRITE (R111): the whole call refused, or every item written and a pass when a rating changed. -/
def ownRatingsWrite (a : RatingsArgs) (s : State) : Taken :=
  match Ratings.writeAll a.items s.budget.ratings with
  | none => .turnedAway s .range
  | some r =>
    { state := { s with budget := { s.budget with ratings := r } }
      reply := ⟨.ok, .ratings r⟩
      after := fun t => if r = s.budget.ratings then t else t.passAndHand }

/-! ### Stage times -/

/-- The check of R126 for every zone. DESIGN CHOICE: in ascending zone number, the waiting curtains retried after each zone
that returns load (assumption 47). -/
def State.stageChecks (s : State) : State := s.forEach 8 fun z s => s.stageCheck z

/-- A zone's second boundary: its stages one second older, then the check of R126. -/
def State.stageSecond (s : State) (z : Fin 8) : State := (s.ageStages z).stageCheck z

/-- Whether a zone's next second boundary switches stages off (R126). -/
def State.stageEnding (s : State) (z : Fin 8) : Bool := (s.ageStages z).budget.requestGone z

/-- STAGE_TIMES (R113): the check of R126 is made for every zone when it is taken. -/
def ownStageTimes (a : StageTimesArgs) (s : State) : Taken :=
  let on := (a.minimumOn.map fun v => min 600 v.toNat).getD s.budget.minOn
  let off := (a.minimumOff.map fun v => min 600 v.toNat).getD s.budget.minOff
  { state := { s with budget := { s.budget with minOn := on, minOff := off } }
    reply := ⟨okOrClamped (a.minimumOn.any (fun v => 600 < v.toNat) || a.minimumOff.any (fun v => 600 < v.toNat)),
      .stageTimes on off⟩
    after := State.stageChecks }

/-! ### BUDGET_READ -/

/-- The grant table (R127). -/
def State.grantReport (s : State) : GrantReport where
  heat       := s.budget.zones.map ZoneGrant.heat
  fans       := s.budget.zones.map ZoneGrant.fans
  curtains   := s.doors.curtains.map Curtain.granted
  levels     := s.budget.groups.map GroupGrant.level
  reserved   := s.budget.reserved
  total      := s.budget.total
  headroom   := s.budget.headroom
  capInForce := s.budget.capInForce
  passes     := s.budget.passes

/-- The heater stages of a zone as reported: on or off, with the time since change (R112). -/
def ZoneGrant.stages (g : ZoneGrant) : Table 4 (Bool × Nat) := g.times.mapIdx fun i t => (decide (i.val < g.heat), t)

/-- BUDGET_READ (R127). -/
def ownBudgetRead (_ : Unit) (s : State) : Taken :=
  .report s (.budget
    { grants := s.grantReport
      phaseCap := s.budget.phaseCap
      supCap := s.budget.supCap.map fun c => ⟨c.units, c.remaining.map (endTime s.now)⟩
      demand := s.budget.demand
      stages := s.budget.zones.map ZoneGrant.stages
      requests := s.budget.groups.map fun g => (g.floorRequest, g.levelRequest) })

/-! ### Meanings -/

/-- CAP_SET (R107, R109). -/
def execCapSet (o : Origin) (b : Body CapSetArgs) (s : State) : Result := s.runCall .capSet o b ownCapSet

/-- CAP_CLEAR (R108, R109). -/
def execCapClear (o : Origin) (b : Body Unit) (s : State) : Result := s.runCall .capClear o b ownCapClear

/-- RATINGS_WRITE (R111). -/
def execRatingsWrite (o : Origin) (b : Body RatingsArgs) (s : State) : Result :=
  s.runCall .ratingsWrite o b ownRatingsWrite

/-- STAGE_TIMES (R113, R126). -/
def execStageTimes (o : Origin) (b : Body StageTimesArgs) (s : State) : Result := s.runCall .stageTimes o b ownStageTimes

/-- BUDGET_READ (R127). -/
def execBudgetRead (o : Origin) (b : Body Unit) (s : State) : Result := s.runCall .budgetRead o b ownBudgetRead

end Sys2Proof.Machine
end

