-- ==== Sys2Proof/Machine/LampCalls.lean ====
section
/-! DEFINITION. The Lighting Unit's calls (R129, R134, R137, R141, R142, R146). -/

namespace Sys2Proof.Machine

/-- A call's change of one group and its recomputation, the unit's own event; its request is taken by the allocator
after the answer (assumption 6). -/
def State.groupCall (s : State) (g : Fin 24) (x : Group) (r : Reply) : Taken :=
  let h := s.groupsDo [g] fun s g _ => recomputed s g x
  { state := h.1, reply := r, after := fun t => Handed.settle (t, h.2) }

/-- The hold an enabled group keeps when its configuration changes (R134). -/
def keptHold (old new : Nat) (hold : Option Nat) : Option Nat :=
  if new = 0 then none
  else if old = 0 then some (hold.getD (60 * new))
  else hold.map (min (60 * new))

/-- The dynamic part after a GROUP_CONFIG (R130, R134). The recomputation that follows in the same call uses the ramp rate
written (DESIGN CHOICE, assumption 58). -/
def Group.reconfigured (x : Group) (c : GroupConfig) : Group :=
  let y := { x with config := c }
  if c.enabled = false then y.disabledNow
  else if x.state = .disabled then y.started
  else
    { y with
      hold := keptHold x.config.hold c.hold x.hold
      state := if c.hold = 0 ∧ x.state = .vacant then .lit else x.state }

/-- GROUP_CONFIG (R129). DESIGN CHOICE: a call that is both out of range and active is answered RANGE (assumption 66). -/
def ownGroupConfig (a : GroupConfigArgs) (s : State) : Taken :=
  match row 24 a.group, row 8 a.zone, a.kind with
  | some g, some z, some k =>
    let x := s.lighting.groups.get g
    if a.doorLinked = true ∧ k = .aisle then .turnedAway s .range
    else if x.state ≠ .disabled ∧ s.zoneMode x.config.zone ≠ .off then .turnedAway s .active
    else
      let hold := min 120 a.hold.toNat
      let rate := min 100 a.rampRate.toNat
      let c : GroupConfig := ⟨a.enabled, z, k, a.doorLinked, a.trimmed, hold, rate⟩
      s.groupCall g (x.reconfigured c)
        ⟨okOrClamped (hold != a.hold.toNat || rate != a.rampRate.toNat), .groupConfig c⟩
  | _, _, _ => .turnedAway s .range

/-- LIGHT_SETTINGS (R137): used from the next second boundary. -/
def ownLightSettings (a : LightSettingsArgs) (s : State) : Taken :=
  let lux := (a.luxStart.map BitVec.toNat).getD s.lighting.luxStart
  let gain := (a.gain.map BitVec.toNat).getD s.lighting.gain
  { state := { s with lighting := { s.lighting with luxStart := lux, gain := gain } }
    reply := ⟨.ok, .light lux gain⟩ }

/-- GROUP_OVERRIDE (R141). -/
def ownGroupOverride (a : GroupOverrideArgs) (s : State) : Taken :=
  match row 24 a.group with
  | none => .turnedAway s .range
  | some g =>
    let x := s.lighting.groups.get g
    if x.state = .disabled then .turnedAway s .range
    else
      let level := max (min 100 a.level.toNat) (s.scene g).floor
      let minutes := clampNat 1 240 a.minutes.toNat
      s.groupCall g { x with state := .overridden, override := some ⟨level, 60 * minutes⟩ }
        ⟨okOrClamped (level != a.level.toNat || minutes != a.minutes.toNat),
          .groupOverride level (endTime s.now (60 * minutes))⟩

/-- GROUP_RELEASE (R142). -/
def ownGroupRelease (a : IndexArgs) (s : State) : Taken :=
  match row 24 a.index with
  | none => .turnedAway s .range
  | some g =>
    let x := s.lighting.groups.get g
    if x.state = .overridden then s.groupCall g x.endOverride (replyOnly .ok)
    else { state := s, reply := replyOnly .ok }

/-- GROUP_READ (R146). -/
def ownGroupRead (a : IndexArgs) (s : State) : Taken :=
  match row 24 a.index with
  | none => .turnedAway s .range
  | some g =>
    let x := s.lighting.groups.get g
    .report s (.group
      { group := x, scene := s.scene g, base := sceneBase (s.scene g) x.state
        overrideEnd := x.override.map fun o => endTime s.now o.seconds
        daylight := s.lighting.taken.reading.status })

/-! ### Meanings -/

/-- GROUP_CONFIG (R129, R130, R134). -/
def execGroupConfig (o : Origin) (b : Body GroupConfigArgs) (s : State) : Result :=
  s.runCall .groupConfig o b ownGroupConfig

/-- LIGHT_SETTINGS (R137). -/
def execLightSettings (o : Origin) (b : Body LightSettingsArgs) (s : State) : Result :=
  s.runCall .lightSettings o b ownLightSettings

/-- GROUP_OVERRIDE (R141). -/
def execGroupOverride (o : Origin) (b : Body GroupOverrideArgs) (s : State) : Result :=
  s.runCall .groupOverride o b ownGroupOverride

/-- GROUP_RELEASE (R142). -/
def execGroupRelease (o : Origin) (b : Body IndexArgs) (s : State) : Result :=
  s.runCall .groupRelease o b ownGroupRelease

/-- GROUP_READ (R146). -/
def execGroupRead (o : Origin) (b : Body IndexArgs) (s : State) : Result := s.runCall .groupRead o b ownGroupRead

end Sys2Proof.Machine
end

