-- ==== Sys2Proof/Machine/Wire.lean ====
section
/-! DEFINITION. The byte-level form of what the part sends (R159): each answer's and notice's body, and the frame around
it. Where R159 leaves a coding open the choice is assumption 13. -/

namespace Sys2Proof.Machine.Wire

/-! ### Fields -/

/-- `n` bytes of an unsigned number, most significant first. -/
def be (n v : Nat) : List Byte := (List.range n).map fun i => BitVec.ofNat 8 (v / 256 ^ (n - 1 - i))

/-- `n` bytes of a signed number in two's complement. -/
def signed (n : Nat) (v : Int) : List Byte := be n (v % ((256 ^ n : Nat) : Int)).toNat

/-- *yes or no*, *on or off*, *high or low*: the first named is 0. -/
def yes (b : Bool) : List Byte := [if b then 0 else 1]

/-- A field that may be absent: a presence byte, then the field. -/
def opt {α : Type} (f : α → List Byte) : Option α → List Byte
  | none => [0]
  | some a => 1 :: f a

/-- A list preceded by its count. -/
def list {α : Type} (f : α → List Byte) (l : List α) : List Byte := be 1 l.length ++ l.flatMap f

/-- A table carried whole, row after row. -/
def whole {n : Nat} {α : Type} (f : α → List Byte) (t : Table n α) : List Byte := t.rows.flatMap f

/-- A set of up to `8 n` members in `n` bytes, its first member in the least significant bit. -/
def set {w : Nat} (n : Nat) (s : BitVec w) : List Byte := be n s.toNat

/-- A set given by a yes or no for each member in turn, in `n` bytes, its first member in the least significant bit. -/
def members (n : Nat) (l : List Bool) : List Byte := be n (l.foldr (fun x v => 2 * v + (if x then 1 else 0)) 0)

/-! ### Named values, each in the order of the rule that lists them -/

def phase (p : Phase) : List Byte := be 1 (phaseIndex p).val
def source : Source → List Byte
  | .calendar => [0] | .lead => [1] | .forced => [2] | .extended => [3] | .noClock => [4]
/-- UNSET or RUNNING (R2). -/
def clockState (running : Bool) : List Byte := [if running then 1 else 0]
def link : Link → List Byte
  | .supervisor => [0] | .panel => [1]
/-- A zone's mode in a demand set and in ZONE_READ's answer, in the order of R83, which owns the mode. -/
def zoneMode : ZoneMode → List Byte
  | .off => [0] | .auto => [1] | .degraded => [2] | .manual => [3]
/-- The mode field of ZONE_MODE, in the order in which R84, which owns the call, lists its values: OFF, AUTO, MANUAL and, after
those three, DEGRADED (assumption 60). -/
def modeAnswered : ZoneMode → List Byte
  | .off => [0] | .auto => [1] | .manual => [2] | .degraded => [3]
def startMode : StartMode → List Byte
  | .off => [0] | .auto => [1]
def doorState : DoorState → List Byte
  | .unused => [0] | .closed => [1] | .opened => [2] | .held => [3]
def curtainState : CurtainState → List Byte
  | .idle => [0] | .demanded => [1] | .runOn => [2]
def recordKind : RecordKind → List Byte
  | .opened => [0] | .closed => [1] | .held => [2] | .trailerArrived => [3] | .trailerLeft => [4]
def nodeType : NodeType → List Byte
  | .temp => [0] | .gas => [1] | .outdoor => [2] | .daylight => [3]
def checkFilter : CheckFilter → List Byte
  | .reject => [0] | .accept => [1]
def nodeStatus : NodeStatus → List Byte
  | .unconfigured => [0] | .fresh => [1] | .suspect => [2] | .held => [3] | .lost => [4]
def groupKind : GroupKind → List Byte
  | .aisle => [0] | .dock => [1] | .yard => [2]
def groupState : GroupState → List Byte
  | .disabled => [0] | .lit => [1] | .vacant => [2] | .overridden => [3]
def lineMode : LineMode → List Byte
  | .input => [0] | .output => [1]
def area : Area → List Byte
  | .commissioning => [0] | .operating => [1]
def areaStatus : AreaStatus → List Byte
  | .valid => [0] | .blank => [1] | .damaged => [2]
def damageCause : DamageCause → List Byte
  | .key => [0] | .check => [1]

/-! ### Records -/

def calEntry (i : Fin 24) (e : CalEntry) : List Byte :=
  be 1 i.val ++ yes e.enabled ++ set 1 e.days ++ be 2 e.start ++ phase e.phase ++ yes e.shiftStart ++ be 1 e.allowance

def params (p : PhaseParams) : List Byte :=
  whole (be 1) p.setpoints ++ be 1 p.vent ++ be 1 p.fallback ++ be 1 p.longOpen ++ be 2 p.cap

/-- The fields present, each as an item: its name, its zone where it has one, and its value. DESIGN CHOICE: in the order of R24,
the setpoints ascending by zone, each field once (assumption 64). -/
def phaseItems (f : PhaseFields) : List (List Byte) :=
  ((indices 8).filterMap fun z => (f.setpoints.get z).map fun v => 0 :: be 1 z.val ++ be 1 v)
    ++ (f.vent.map fun v => 1 :: be 1 v).toList ++ (f.fallback.map fun v => 2 :: be 1 v).toList
    ++ (f.longOpen.map fun v => 3 :: be 1 v).toList ++ (f.cap.map fun v => 4 :: be 2 v).toList

def scene (s : Scene) : List Byte := be 1 s.level ++ be 1 s.vacant ++ be 1 s.floor

/-- A staged edit's key and content (R35). -/
def edit : Edit → List Byte
  | .entry i e => 0 :: be 1 i.val ++ calEntry i e
  | .params p f => 1 :: phase p ++ list id (phaseItems f)
  | .scene p g level vacant floor => 2 :: phase p ++ be 1 g.val ++ be 1 level ++ be 1 vacant ++ opt (be 1) floor

/-- A staged edit with its position and the link its content last came from (R35). -/
def stagedEdit (x : Nat × StagedEdit) : List Byte := be 1 x.1 ++ edit x.2.edit ++ link x.2.link

def phaseReport (r : PhaseReport) : List Byte :=
  phase r.phase ++ source r.source ++ be 3 r.entered ++ opt (be 3) r.overrideEnd ++ phase r.scheduled

/-- A door channel's configuration. DESIGN CHOICE: a zone or curtain of *none* is sent as a field that is absent
(assumption 61). -/
def doorConfig (c : DoorConfig) : List Byte :=
  yes c.configured ++ opt (fun z => be 1 z.val) c.zone ++ opt (fun x => be 1 x.val) c.curtain ++ be 1 c.doorDebounce
    ++ be 1 c.trailerDebounce ++ set 1 c.capture

def pendingChange (p : Pending) : List Byte := yes p.level ++ be 1 p.ticks

/-- A channel record. A pending change's level and ticks share one presence byte (assumption 56). -/
def channel (x : Channel) : List Byte :=
  doorConfig x.config ++ doorState x.state ++ [if x.trailer then 1 else 0] ++ opt pendingChange x.doorPending
    ++ opt pendingChange x.trailerPending ++ be 2 x.interval ++ opt (be 3) x.lastEdge ++ opt (be 2) x.lastOpen
    ++ opt (be 2) x.lastClosed ++ be 2 x.openings ++ be 4 x.openSeconds ++ be 2 x.longest

/-- DOOR_READ's answer (R65). DESIGN CHOICE: what can be absent together shares one presence byte: the forecast's seconds
and window end, and the curtain's state and grant (assumption 56). -/
def doorReport (r : DoorReport) : List Byte :=
  channel r.channel ++ opt (fun f => be 2 f.1 ++ be 3 f.2) r.forecast
    ++ opt (fun c => curtainState c.1 ++ yes c.2) r.curtain

def curtain (x : Curtain) : List Byte :=
  yes x.config.configured ++ be 1 x.config.zone.val ++ be 1 x.config.runOn ++ curtainState x.state
    ++ opt (be 1) x.remaining ++ yes x.granted

def doorRecord (r : DoorRecord) : List Byte :=
  be 1 r.door.val ++ recordKind r.kind ++ be 3 r.time ++ phase r.phase ++ opt (be 2) r.interval

/-- The bytes that hold a value of a type's range (R67). DESIGN CHOICE: the width follows the node's type, one byte for TEMP and
OUTDOOR and two for GAS and DAYLIGHT (assumption 63). -/
def valueBytes : NodeType → Nat
  | .temp | .outdoor => 1
  | .gas | .daylight => 2

def node (x : Node) : List Byte :=
  yes x.config.configured ++ nodeType x.config.type ++ checkFilter x.config.filter
    ++ opt (be (valueBytes x.config.type)) x.value ++ nodeStatus x.status ++ be 2 x.age ++ be 1 x.failures

def sourceName : SourceName → List Byte
  | .temperature z => 0 :: be 1 z.val
  | .gas z => 1 :: be 1 z.val
  | .outdoor => [2]
  | .daylight => [3]

/-- A source map entry: a node's address or *none*. DESIGN CHOICE: *none* is sent as a field that is absent, a presence byte of
0 (assumption 61). -/
def mapped (n : Option (Fin 16)) : List Byte := opt (fun n => [address n]) n

def sourceMap (m : SourceMap) : List Byte :=
  whole mapped m.temperature ++ whole mapped m.gas ++ mapped m.outdoor ++ mapped m.daylight

def zoneConfig (c : ZoneConfig) : List Byte :=
  be 1 c.heaterStages ++ be 1 c.fanStages ++ be 1 c.step ++ be 1 c.hysteresis ++ be 1 c.doorCoefficient
    ++ be 1 c.makeUp ++ be 1 c.boost ++ be 1 c.setpointLow ++ be 1 c.setpointHigh ++ be 1 c.bandLow ++ be 1 c.bandHigh
    ++ be 1 c.trailersPerStage ++ startMode c.startMode

/-- A source reading: its value where it has one, in `n` bytes, and its status. -/
def reading (n : Nat) (r : Reading) : List Byte := opt (be n) r.value ++ nodeStatus r.status

def working (w : Working) : List Byte :=
  opt (be 1) w.setpoint ++ opt (be 1) w.setpointWork ++ opt (reading 1) w.temperature ++ opt (reading 1) w.outdoor
    ++ opt (reading 2) w.gas ++ opt (be 2) w.openTime ++ opt (be 1) w.trailers ++ opt yes w.forecast
    ++ opt (be 1) w.grantedFans ++ opt (signed 2) w.error ++ opt (be 1) w.deltaT ++ opt (be 1) w.doorLoss
    ++ opt (be 1) w.makeUp ++ opt (be 1) w.boost ++ opt (be 1) w.plainRequest ++ opt (be 1) w.gasStages
    ++ opt (be 1) w.trailerStages

/-- ZONE_READ's answer: mode, configuration and manual counts, the results, and the working figures, in the order in which
R105 names them, and the results in the order of R81. DESIGN CHOICE: R81, which lists the record, has its configuration
before its mode; the order is that of R105, the rule that owns the answer (assumption 54). -/
def zoneReport (r : ZoneReport) : List Byte :=
  zoneMode r.zone.mode ++ zoneConfig r.zone.config ++ be 1 r.zone.manualHeat ++ be 1 r.zone.manualFans
    ++ opt (signed 2) r.zone.results.effective ++ be 1 r.zone.results.heat ++ be 1 r.zone.results.fans
    ++ be 1 r.zone.results.gasFloor ++ opt (be 1) r.zone.results.share ++ working r.zone.results.working
    ++ be 2 r.deviation ++ be 2 r.deficit ++ be 1 r.timer ++ be 1 r.period ++ be 4 r.cycles

def ratings (r : Ratings) : List Byte :=
  whole (whole (be 2)) r.heaters ++ whole (be 2) r.fans ++ whole (be 2) r.curtains ++ whole (be 2) r.groups

/-- The grant table (R127). DESIGN CHOICE: the curtains granted are sent as a set, curtain 0 first, as the boards present are
(assumption 14). -/
def grants (g : GrantReport) : List Byte :=
  whole (be 1) g.heat ++ whole (be 1) g.fans ++ members 2 g.curtains.rows ++ whole (be 1) g.levels ++ be 4 g.reserved
    ++ be 4 g.total ++ signed 4 g.headroom ++ be 2 g.capInForce ++ be 4 g.passes

def zoneDemand (d : ZoneDemand) : List Byte :=
  zoneMode d.mode ++ opt (signed 2) d.effective ++ be 1 d.heat ++ be 1 d.fans ++ be 1 d.gasFloor

/-- The heater stages' states, then their times since change (R112), zone by zone and in each zone from stage 1. DESIGN CHOICE:
the states are sent as the set of the stages that are on (assumption 14). -/
def stages (t : Table 8 (Table 4 (Bool × Nat))) : List Byte :=
  members 4 (t.rows.flatMap fun z => z.rows.map Prod.fst) ++ whole (whole fun x => be 2 x.2) t

/-- BUDGET_READ's answer (R127), the longest of all: at most 242 bytes after its status. The supervisor cap's units and end stand
behind one presence byte (assumption 56). -/
def budget (r : BudgetReport) : List Byte :=
  grants r.grants ++ be 2 r.phaseCap ++ opt (fun c => be 2 c.units ++ opt (be 3) c.capEnd) r.supCap
    ++ opt (whole zoneDemand) r.demand ++ stages r.stages
    ++ whole (fun q => be 1 q.1 ++ be 1 q.2) r.requests

def groupConfig (c : GroupConfig) : List Byte :=
  yes c.enabled ++ be 1 c.zone.val ++ groupKind c.kind ++ yes c.doorLinked ++ yes c.trimmed ++ be 1 c.hold
    ++ be 1 c.rampRate

/-- A group record. Its override's level and seconds share one presence byte (assumption 56). -/
def group (x : Group) : List Byte :=
  groupConfig x.config ++ groupState x.state ++ opt (be 2) x.hold
    ++ opt (fun o => be 1 o.level ++ be 2 o.seconds) x.override ++ be 1 x.trim ++ be 1 x.desired ++ be 1 x.floorRequest
    ++ be 1 x.levelRequest ++ be 1 x.granted ++ be 1 x.output

def groupReport (r : GroupReport) : List Byte :=
  group r.group ++ scene r.scene ++ opt (be 1) r.base ++ opt (be 3) r.overrideEnd ++ nodeStatus r.daylight

def binding : Binding → List Byte
  | .doorContact d => 0 :: be 1 d.val
  | .trailer d => 1 :: be 1 d.val
  | .occupancy g => 2 :: be 1 g.val
  | .heat z i => 3 :: be 1 z.val ++ be 1 i
  | .fan z i => 4 :: be 1 z.val ++ be 1 i
  | .curtain c => 5 :: be 1 c.val
  | .spareIn => [6]
  | .spareOut => [7]

def lineRecord (c : LineConfig) (latch : Bool) : List Byte :=
  lineMode c.mode ++ yes c.pullUp ++ yes c.invert ++ binding c.binding ++ yes latch

/-- The answer of LINE_READ, its fields in the order in which R155 names them, the stranded mark last. -/
def lineReport (r : LineReport) : List Byte :=
  lineRecord r.config r.latch ++ yes r.high ++ yes r.active ++ yes r.present ++ be 2 r.bad ++ be 2 r.consecutive
    ++ yes r.stranded

/-- The board presence, position 0 in the least significant bit. -/
def boards (b : Table 6 Bool) : List Byte := members 1 b.rows

/-- The save state, IDLE or SAVING, then the area being written, which is absent while IDLE (R175). -/
def saveState (writing : Option Area) : List Byte := (if writing.isSome then 1 else 0) :: opt area writing

/-- An area's outcome, then the cause, which is absent unless the area is DAMAGED (R174). -/
def areaResult : AreaResult → List Byte
  | .notRequested => 0 :: opt damageCause none
  | .valid => 1 :: opt damageCause none
  | .damaged cause => 2 :: opt damageCause (some cause)

def saveResult (r : SaveResult) : List Byte := areaResult r.commissioning ++ areaResult r.operating

def summary (r : SummaryReport) : List Byte :=
  be 3 r.summary.start ++ [if r.summary.startRunning then 0 else 1] ++ phase r.summary.startPhase
    ++ whole (fun z => be 4 z.heatSeconds) r.summary.zones ++ whole (fun z => be 4 z.fanSeconds) r.summary.zones
    ++ whole (fun z => be 4 z.openings) r.summary.zones ++ whole (fun z => be 4 z.openSeconds) r.summary.zones
    ++ be 4 r.summary.peak ++ be 4 r.summary.overcap ++ whole (be 4) r.summary.phaseSeconds ++ be 4 r.summary.energy
    ++ be 5 r.duration ++ be 3 r.energy

/-! ### Bodies -/

/-- The answer fields after the status (R164). PRESUMED: the revision letter of IDENT is sent as its character code
(assumption 59). -/
def answerFields : AnswerFields → List Byte
  | .bare => []
  | .clock weekSecond tick day minute running =>
    be 3 weekSecond ++ be 1 tick ++ be 1 day ++ be 2 minute ++ clockState running
  | .calEntry i e staged => calEntry i e ++ yes staged
  | .calStored i e => calEntry i e
  | .calSettings p rate => phase p ++ be 1 rate
  | .phase r running => phaseReport r ++ clockState running
  | .overrideEnd e => opt (be 3) e
  | .extendedEnd e => be 3 e
  | .phaseFields f => list id (phaseItems f)
  | .scene s => scene s
  | .panelScene level vacant => be 1 level ++ be 1 vacant
  | .staged n edits => be 1 n ++ list stagedEdit edits
  | .discarded n => be 1 n
  | .phaseTable p staged => params p ++ yes staged
  | .sceneRead s staged => scene s ++ yes staged
  | .doorConfig c => doorConfig c
  | .door r => doorReport r
  | .curtain x => curtain x
  | .windowEnd e => be 3 e
  | .thresholds busy quiet => be 1 busy ++ be 1 quiet
  | .doorRecords rs left => list doorRecord rs ++ be 1 left
  | .node x => node x
  | .nodeRead x es => node x ++ list sourceName es
  | .sourceMap m => sourceMap m
  | .sensorLimits stale degrade assumed => be 1 stale ++ be 2 degrade ++ be 1 assumed
  | .zoneConfig c => zoneConfig c
  | .zoneMode m => modeAnswered m
  | .zoneManual heat fans => be 1 heat ++ be 1 fans
  | .cycle setting timer => be 1 setting ++ be 1 timer
  | .climate g1 g2 g3 limit => be 2 g1 ++ be 2 g2 ++ be 2 g3 ++ be 2 limit
  | .zone r => zoneReport r
  | .capSet units cap e => be 2 units ++ be 2 cap ++ opt (be 3) e
  | .capClear cap => be 2 cap
  | .ratings r => ratings r
  | .stageTimes on off => be 2 on ++ be 2 off
  | .budget r => budget r
  | .groupConfig c => groupConfig c
  | .light lux gain => be 2 lux ++ be 1 gain
  | .groupOverride level e => be 1 level ++ be 3 e
  | .group r => groupReport r
  | .line c latch => lineRecord c latch
  | .latch on => yes on
  | .lineRead r => lineReport r
  | .ident vendor part revision present store =>
    be 2 vendor ++ be 1 part ++ be 1 revision.toNat ++ boards present
      ++ areaStatus store.commStatus ++ areaStatus store.operStatus ++ saveState store.writing
  | .flags f e => set 2 f ++ set 2 e
  | .store r last key =>
    saveState r.writing ++ areaStatus r.commStatus ++ areaStatus r.operStatus ++ opt saveResult last ++ yes key
  | .shift r => opt summary r

/-- A notice's body (R168). -/
def notice : Notice → List Byte
  | .attention f flags enables => be 1 (flagIndex f) ++ set 2 flags ++ set 2 enables
  | .phase r => phaseReport r
  | .doorBatch part parts rs => be 1 part ++ be 1 parts ++ list doorRecord rs
  | .shiftSummary r => summary r
  | .storeResult r => saveResult r

/-- A frame's body: an answer begins with its status byte (R164). -/
def body : Content → List Byte
  | .answer r => be 1 (statusCode r.status) ++ answerFields r.fields
  | .notice n => notice n

/-- The bytes of a frame with a given body: start, length, kind, tag, body and check (R159). -/
def frameBytes (kind tag : Byte) (b : List Byte) : List Byte :=
  let inner := be 1 b.length ++ [kind, tag] ++ b
  0x7E :: inner ++ be 2 (crc16 inner).toNat

/-- The bytes of a frame as the transmitter sends it. None for a body longer than the 248 bytes R159 allows, which no answer the
part makes has: the rules bound every list they carry, and the longest answer, BUDGET_READ's, fits (assumption 14). -/
def frame (f : Frame) : Option (List Byte) :=
  let b := body f.content
  if b.length ≤ Config.bodyBytes then some (frameBytes f.kind f.tag b) else none

end Sys2Proof.Machine.Wire
end

