-- ==== Sys2Proof/Machine/Calendar.lean ====
section
/-! DEFINITION. The Shed Clock and the Shift Calendar (R1 to R39): transitions and what they hand on, the calendar match,
the preheat lead, the set event, overrides, the staging list and the tables that govern phases, with their calls. -/

namespace Sys2Proof.Machine

/-! ### What is scheduled and what is reported (R10, R11, R15) -/

/-- An override is active: the source is FORCED or EXTENDED (R8). -/
def PhaseRecord.overridden (r : PhaseRecord) : Bool := r.source == .forced || r.source == .extended

/-- The phase the calendar alone would put in force now (R11); the no-clock phase while the clock is UNSET (R10). -/
def State.scheduled (s : State) : Phase :=
  if s.clock.running then lookup s.calendar.entries s.calendar.noClock s.minute else s.calendar.noClock

/-- The override end as reported: the present week-second plus the seconds remaining (R15). -/
def State.overrideEndTime (s : State) (o : Option Override) : Option Nat :=
  (o.bind Override.remaining).map (endTime s.now)

/-- The fields of the PHASE notice and of PHASE_READ (R10). -/
def State.phaseReport (s : State) : PhaseReport :=
  let r := s.calendar.record
  ⟨r.phase, r.source, r.entered, s.overrideEndTime r.override, s.scheduled⟩

/-! ### The tables and the staging list (R24 to R34) -/

/-- Where a zone's setpoint limits move a setpoint (R25). -/
def State.setpointLimit (s : State) (z : Fin 8) (code : Nat) : Nat := (s.climate.zones.get z).config.clampSetpoint code

/-- The scene of a phase and group replaced. -/
def Calendar.putScene (c : Calendar) (p : Phase) (g : Fin 24) (x : Scene) : Calendar :=
  { c with scenes := c.scenes.modify (phaseIndex p) fun t => t.set g x }

/-- The scene of a phase and group. -/
def Calendar.sceneAt (c : Calendar) (p : Phase) (g : Fin 24) : Scene := (c.scenes.get (phaseIndex p)).get g

/-- Fields written into a phase parameter record (R30). -/
def Calendar.putFields (c : Calendar) (p : Phase) (f : PhaseFields) : Calendar :=
  { c with params := c.params.modify (phaseIndex p) fun x => x.write f }

/-- One staged edit applied (R34): setpoints clamped by the limits of the moment, scenes ordered by R27, or against the
table's floor by R38 when the edit has none. -/
def Calendar.applyEdit (c : Calendar) (limit : Fin 8 → Nat → Nat) : Edit → Calendar
  | .entry i e => { c with entries := c.entries.set i e }
  | .params p f => c.putFields p (f.clamp limit)
  | .scene p g level vacant (some floor) => c.putScene p g (orderScene level vacant floor)
  | .scene p g level vacant none => c.putScene p g (orderPanelScene level vacant (c.sceneAt p g).floor)

/-- The staging list applied in order and emptied (R34). -/
def Calendar.applyStaging (c : Calendar) (limit : Fin 8 → Nat → Nat) : Calendar :=
  { c.staging.foldl (fun c x => c.applyEdit limit x.edit) c with staging := [] }

/-- An edit that a later write with the same key makes of a pending one (R32, R38): merged fields for a phase parameter
record, the pending floor kept by a panel's scene, and otherwise the new content. -/
def Edit.join : Edit → Edit → Edit
  | .params p f, .params _ g => .params p (f.merge g)
  | .scene p g _ _ floor, .scene _ _ level vacant floor' => .scene p g level vacant (floor'.or floor)
  | _, new => new

/-- The key is in the staging list. -/
def Calendar.isStaged (c : Calendar) (k : EditKey) : Bool := c.staging.any fun x => x.edit.key == k

/-- An edit offered to the staging list (R32); none when it is FULL. -/
def Calendar.stage (c : Calendar) (e : Edit) (l : Link) : Option Calendar :=
  if c.isStaged e.key then
    some { c with staging := c.staging.map fun x => if x.edit.key = e.key then ⟨x.edit.join e, l⟩ else x }
  else if c.staging.length < Config.stagingEdits then some { c with staging := c.staging ++ [⟨e, l⟩] }
  else none

/-- A pending edit removed whole by an AT_ONCE write with its key (R33). -/
def Calendar.unstage (c : Calendar) (k : EditKey) : Calendar :=
  { c with staging := c.staging.filter fun x => x.edit.key != k }

/-! ### Transitions (R9) -/

/-- Steps 2 to 4 of a transition: the staging list applied, the phase record written, PHASE_CHANGED delivered and the
PHASE notice offered on each link. Step 1 has settled the phase, source and override given. -/
def State.enter (s : State) (p : Phase) (src : Source) (o : Option Override) : State :=
  let c := s.calendar.applyStaging s.setpointLimit
  let t : State := { s with calendar := { c with record := ⟨p, src, s.now, o⟩ } }
  let t := t.raise .phaseChanged
  (t.notify .supervisor (.phase t.phaseReport)).notify .panel (.phase t.phaseReport)

/-- The phase cap of the phase in force taken by the allocator, and a pass when the cap in force changes (R106, R109). -/
def State.takePhaseCap (s : State) : State :=
  let t : State := { s with budget := { s.budget with phaseCap := (s.paramsOf s.phase).cap } }
  t.passIfCapChanged s

/-- Step 5 of a transition: the new record handed to the Zone Climate Engine, the Lighting Unit, the Door Unit, the Load
Allocator and the Accounting Unit, in the order R9 names them (assumption 6). `before` is the phase that was in force;
`mark` says that a match of a shift-start entry caused the transition. -/
def State.handOn (s : State) (before : Phase) (mark : Bool) : State :=
  let s := ((s.cycle.retarget).doorTransition before mark).takePhaseCap
  if mark then s.rollover else s

/-- A whole transition (R9). -/
def State.transition (s : State) (p : Phase) (src : Source) (o : Option Override) (mark : Bool) : State :=
  (s.enter p src o).handOn s.phase mark

/-! ### Causes of a transition -/

/-- Where the end of an override leads (R18): its phase and source. -/
def State.afterOverride (s : State) : Phase × Source := (s.scheduled, if s.clock.running then .calendar else .noClock)

/-- The end of an override's time (R18). -/
def State.endOverride (s : State) : State :=
  s.transition s.afterOverride.1 s.afterOverride.2 none false

/-- The phase override's second boundary (R15): its count decreased, and its end at 0. -/
def State.overrideSecond (s : State) : State :=
  match s.calendar.record.override with
  | some ⟨some n⟩ =>
    if n ≤ 1 then s.endOverride
    else { s with calendar := { s.calendar with record := { s.calendar.record with override := some ⟨some (n - 1)⟩ } } }
  | _ => s

/-- Whether the phase override's time ends at its next second boundary. -/
def State.overrideEnding (s : State) : Bool :=
  match s.calendar.record.override with
  | some ⟨some n⟩ => decide (n ≤ 1)
  | _ => false

/-- The preheat lead would enter PREHEAT now (R21, R22). -/
def State.leadHoldsNow (s : State) : Bool :=
  leadHolds s.calendar.entries s.minute s.climate.deficit s.calendar.leadRate

/-- A calendar match taken: a transition to the winning entry's phase (R14). -/
def State.takeMatch (s : State) (e : CalEntry) : State := s.transition e.phase .calendar none e.shiftStart

/-- The preheat lead evaluated at a minute boundary (R21). -/
def State.evaluateLead (s : State) : State :=
  if s.phase = .setback ∧ s.calendar.record.source = .calendar ∧ s.leadHoldsNow then
    s.transition .preheat .lead none false
  else s

/-- A minute boundary taken by the Shift Calendar (R14). -/
def State.calendarMinute (s : State) : State :=
  if s.clock.running = false ∨ s.calendar.record.overridden then s
  else
    match winner s.calendar.entries s.minute with
    | some e => s.takeMatch e
    | none => s.evaluateLead

/-- A minute boundary taken by the Shed Clock: CLOCK_UNSET is repeated while the clock is UNSET (R2). -/
def State.clockMinute (s : State) : State := s.raiseIf (!s.clock.running) .clockUnset

/-- Cases 2 and 3 of R13: the outcome by the lookup, or PREHEAT by the lead where that gives SETBACK, and a transition
where the outcome differs from the phase record. -/
def State.settleOutcome (s : State) : State :=
  let p := s.scheduled
  let outcome : Phase × Source := if p = .setback ∧ s.leadHoldsNow then (.preheat, .lead) else (p, .calendar)
  if (s.phase, s.calendar.record.source) = outcome then s else s.transition outcome.1 outcome.2 none false

/-- What follows a CLOCK_SET (R3, R13): the minute boundary of a changed minute delivered to the rings and the calendar,
then the set event. The match of a delivered boundary is the match of case 1. -/
def State.setEvent (s : State) (wasUnset minuteChanged : Bool) : State :=
  let matched := winner s.calendar.entries s.minute
  let t := if minuteChanged then s.ringMinute.calendarMinute else s
  if s.calendar.record.overridden || (!wasUnset && !minuteChanged) then t
  else
    match matched with
    | some e => if minuteChanged then t else t.takeMatch e
    | none => t.settleOutcome

/-! ### Calls of the clock (R3, R4) -/

/-- CLOCK_SET (R3). -/
def ownClockSet (a : ClockSetArgs) (s : State) : Taken :=
  let w := a.weekSecond.toNat
  if Config.weekSeconds ≤ w then .turnedAway s .range
  else
    { state := { s with clock := ⟨w, 0, true⟩ }, reply := replyOnly .ok
      after := fun t => t.setEvent (!s.clock.running) (minuteOfWeek w != s.minute) }

/-- CLOCK_READ (R4). -/
def ownClockRead (_ : Unit) (s : State) : Taken :=
  .report s (.clock s.now s.clock.tick (dayOf s.now) (minuteOfDay s.now) s.clock.running)

/-! ### Calls of the calendar (R6, R7, R19) -/

/-- The calendar of a state replaced. -/
def State.setCalendar (s : State) (c : Calendar) : State := { s with calendar := c }

/-- A staged write offered to the list: FULL, or the call's own answer (R32). -/
def State.stageEdit (s : State) (e : Edit) (l : Link) (r : Reply) : Taken :=
  match s.calendar.stage e l with
  | none => .turnedAway s .full
  | some c => { state := s.setCalendar c, reply := r }

/-- The entry CAL_WRITE stores: an allowance above 120 clamped (R6). -/
def writtenEntry (a : CalWriteArgs) (p : Phase) : CalEntry :=
  ⟨a.enabled, a.days, a.start.toNat, p, a.shiftStart, min 120 a.allowance.toNat⟩

/-- CAL_WRITE (R6). R6 names no answer fields: an OK answer is its status alone, and a CLAMPED one shows the entry as
stored or staged, as R164 has every CLAMPED answer do. That reading, and RANGE for a mode that is neither AT_ONCE nor
STAGED, are the model's (DEDUCED, assumption 18). -/
def ownCalWrite (l : Link) (a : CalWriteArgs) (s : State) : Taken :=
  match row 24 a.index, a.phase, a.mode with
  | some i, some p, some m =>
    if Config.dayMinutes ≤ a.start.toNat then .turnedAway s .range
    else
      let e := writtenEntry a p
      let r : Reply := if e.allowance = a.allowance.toNat then replyOnly .ok else ⟨.clamped, .calStored i e⟩
      match m with
      | .staged => s.stageEdit (.entry i e) l r
      | .atOnce => { state := s.setCalendar ((s.calendar.unstage (.entry i)).applyEdit s.setpointLimit (.entry i e)),
                     reply := r }
  | _, _, _ => .turnedAway s .range

/-- CAL_READ (R7). -/
def ownCalRead (a : IndexArgs) (s : State) : Taken :=
  match row 24 a.index with
  | none => .turnedAway s .range
  | some i => .report s (.calEntry i (s.calendar.entries.get i) (s.calendar.isStaged (.entry i)))

/-- CAL_SETTINGS (R19). -/
def ownCalSettings (a : CalSettingsArgs) (s : State) : Taken :=
  match a.noClock with
  | some none => .turnedAway s .range
  | p =>
    let noClock := (p.bind id).getD s.calendar.noClock
    let rate := (a.leadRate.map BitVec.toNat).getD s.calendar.leadRate
    { state := s.setCalendar { s.calendar with noClock := noClock, leadRate := rate }
      reply := ⟨.ok, .calSettings noClock rate⟩ }

/-! ### Calls of the phase record (R10, R16 to R18) -/

/-- PHASE_READ (R10). -/
def ownPhaseRead (_ : Unit) (s : State) : Taken := .report s (.phase s.phaseReport s.clock.running)

/-- The override record replaced, the phase and source as they were. -/
def State.setOverride (s : State) (o : Option Override) : State :=
  s.setCalendar { s.calendar with record := { s.calendar.record with override := o } }

/-- A transition made by a call: steps 2 to 4 before its answer, step 5 handed on (assumption 6). -/
def State.callTransition (s : State) (p : Phase) (src : Source) (o : Option Override) (r : Reply) : Taken :=
  { state := s.enter p src o, reply := r, after := fun t => t.handOn s.phase false }

/-- PHASE_FORCE (R16). -/
def ownPhaseForce (a : PhaseForceArgs) (s : State) : Taken :=
  match a.phase with
  | none => .turnedAway s .range
  | some p =>
    let minutes := min 1440 a.minutes.toNat
    let o : Option Override := some ⟨secondsOf minutes⟩
    let r : Reply := ⟨okOrClamped (minutes != a.minutes.toNat), .overrideEnd (s.overrideEndTime o)⟩
    if s.calendar.record.source = .forced ∧ s.phase = p then { state := s.setOverride o, reply := r }
    else s.callTransition p .forced o r

/-- PHASE_EXTEND (R17), judged in the order of its table. Its answer carries the new end, which an extension always has. -/
def ownPhaseExtend (a : PhaseExtendArgs) (s : State) : Taken :=
  let minutes := clampNat 15 120 a.minutes.toNat
  let record := s.calendar.record
  let held := (record.override.bind Override.remaining).getD 0
  let reply := fun n : Nat => (⟨okOrClamped (minutes != a.minutes.toNat), .extendedEnd (endTime s.now n)⟩ : Reply)
  if record.source = .forced then .turnedAway s .overridden
  else if busyClass s.phase = false then .turnedAway s .wrongPhase
  else if record.source = .extended then
    let n := min Config.extendSeconds (held + 60 * minutes)
    { state := s.setOverride (some ⟨some n⟩), reply := reply n }
  else s.callTransition s.phase .extended (some ⟨some (60 * minutes)⟩) (reply (60 * minutes))

/-- PHASE_RELEASE (R18). -/
def ownPhaseRelease (_ : Unit) (s : State) : Taken :=
  if s.calendar.record.overridden then
    s.callTransition s.afterOverride.1 s.afterOverride.2 none (replyOnly .ok)
  else { state := s, reply := replyOnly .ok }

/-! ### Calls of the tables (R28 to R39) -/

/-- What a table-change event of R30 hands for the fields written of the phase in force: a long-open limit to the Door
Unit, a phase cap to the Load Allocator. DESIGN CHOICE: of a write that names both, the Door Unit's event is taken first
(assumption 40). -/
def State.fieldsChanged (s : State) (p : Phase) (f : PhaseFields) : State :=
  if p = s.phase then
    let t := if f.longOpen.isSome then s.compareDoors else s
    if f.cap.isSome then t.takePhaseCap else t
  else s

/-- The fields a PHASE_WRITE keeps, and its status: the supervisor's values clamped (R28); the panel's setpoints alone,
clamped into the zone's band (R37). -/
def State.filterFields (s : State) (l : Link) (f : PhaseFields) : PhaseFields × Status :=
  match l with
  | .supervisor =>
    let g := f.clamp s.setpointLimit
    (g, okOrClamped (g != f))
  | .panel =>
    let kept := f.setpointsOnly
    let g := kept.clamp fun z v => s.setpointLimit z ((s.climate.zones.get z).config.clampBand v)
    (g, if kept = f then okOrClamped (g != f) else .partially)

/-- PHASE_WRITE (R28, R30, R32, R33, R37). -/
def ownPhaseWrite (l : Link) (a : PhaseWriteArgs) (s : State) : Taken :=
  match a.phase, PhaseFields.ofItems a.items .empty, a.mode with
  | some p, some f, some m =>
    if a.items.isEmpty then .turnedAway s .range
    else
      let g := (s.filterFields l f).1
      let r : Reply := ⟨(s.filterFields l f).2, .phaseFields g⟩
      if g = .empty then { state := s, reply := r }
      else
        match m with
        | .staged => s.stageEdit (.params p g) l r
        | .atOnce =>
          { state := s.setCalendar ((s.calendar.unstage (.params p)).putFields p g), reply := r
            after := fun t => t.fieldsChanged p g }
  | _, _, _ => .turnedAway s .range

/-- What a table-change event of R30 hands for a scene: the Lighting Unit, when its phase is in force. -/
def State.sceneWritten (s : State) (p : Phase) (g : Fin 24) : State := if p = s.phase then s.sceneChanged g else s

/-- A scene written at once (R30, R33). -/
def State.writeScene (s : State) (p : Phase) (g : Fin 24) (x : Scene) (r : Reply) : Taken :=
  { state := s.setCalendar ((s.calendar.unstage (.scene p g)).putScene p g x), reply := r
    after := fun t => t.sceneWritten p g }

/-- SCENE_WRITE from the supervisor (R29). -/
def supervisorScene (p : Phase) (g : Fin 24) (a : SceneWriteArgs) (m : WriteMode) (s : State) : Taken :=
  let x := orderScene a.level.toNat a.vacant.toNat a.floor.toNat
  let moved := x.level != a.level.toNat || x.vacant != a.vacant.toNat || x.floor != a.floor.toNat
  let r : Reply := ⟨okOrClamped moved, .scene x⟩
  match m with
  | .staged => s.stageEdit (.scene p g x.level x.vacant (some x.floor)) .supervisor r
  | .atOnce => s.writeScene p g x r

/-- SCENE_WRITE from the panel: its floor set aside (R38). -/
def panelScene (p : Phase) (g : Fin 24) (a : SceneWriteArgs) (m : WriteMode) (s : State) : Taken :=
  let level := min 100 a.level.toNat
  let vacant := min 100 a.vacant.toNat
  match m with
  | .staged => s.stageEdit (.scene p g level vacant none) .panel ⟨.partially, .panelScene level vacant⟩
  | .atOnce =>
    let x := orderPanelScene level vacant (s.sceneOf p g).floor
    s.writeScene p g x ⟨.partially, .panelScene x.level x.vacant⟩

/-- SCENE_WRITE (R29, R38). -/
def ownSceneWrite (l : Link) (a : SceneWriteArgs) (s : State) : Taken :=
  match a.phase, row 24 a.group, a.mode with
  | some p, some g, some m =>
    match l with
    | .supervisor => supervisorScene p g a m s
    | .panel => panelScene p g a m s
  | _, _, _ => .turnedAway s .range

/-- The leading edits whose bytes fit in what an answer body has left, as many whole ones as it holds (R35). -/
def fitEdits : Nat → List (Nat × StagedEdit) → List (Nat × StagedEdit)
  | _, [] => []
  | left, x :: rest =>
    if (Wire.stagedEdit x).length ≤ left then x :: fitEdits (left - (Wire.stagedEdit x).length) rest else []

/-- The body bytes STAGED_READ has for edits: all but the status, the number and the list's count. -/
def editRoom : Nat := Config.bodyBytes - 3

/-- STAGED_READ (R35). -/
def ownStagedRead (a : IndexArgs) (s : State) : Taken :=
  let edits := s.calendar.staging
  let numbered := ((List.range edits.length).zip edits).drop a.index.toNat
  .report s (.staged edits.length (fitEdits editRoom numbered))

/-- STAGED_DISCARD (R36). -/
def ownStagedDiscard (_ : Unit) (s : State) : Taken :=
  { state := s.setCalendar { s.calendar with staging := [] }, reply := ⟨.ok, .discarded s.calendar.staging.length⟩ }

/-- PHASE_TABLE_READ (R39). -/
def ownPhaseTableRead (a : PhaseTableReadArgs) (s : State) : Taken :=
  match a.phase with
  | none => .turnedAway s .range
  | some p => .report s (.phaseTable (s.paramsOf p) (s.calendar.isStaged (.params p)))

/-- SCENE_READ (R39). -/
def ownSceneRead (a : SceneReadArgs) (s : State) : Taken :=
  match a.phase, row 24 a.group with
  | some p, some g => .report s (.sceneRead (s.sceneOf p g) (s.calendar.isStaged (.scene p g)))
  | _, _ => .turnedAway s .range

/-! ### Meanings -/

/-- CLOCK_SET (R3, R13). -/
def execClockSet (o : Origin) (b : Body ClockSetArgs) (s : State) : Result := s.runCall .clockSet o b ownClockSet

/-- CLOCK_READ (R4). -/
def execClockRead (o : Origin) (b : Body Unit) (s : State) : Result := s.runCall .clockRead o b ownClockRead

/-- CAL_WRITE (R6, R32, R33). -/
def execCalWrite (o : Origin) (b : Body CalWriteArgs) (s : State) : Result :=
  s.runCall .calWrite o b (ownCalWrite o.link)

/-- CAL_READ (R7). -/
def execCalRead (o : Origin) (b : Body IndexArgs) (s : State) : Result := s.runCall .calRead o b ownCalRead

/-- CAL_SETTINGS (R19). -/
def execCalSettings (o : Origin) (b : Body CalSettingsArgs) (s : State) : Result :=
  s.runCall .calSettings o b ownCalSettings

/-- PHASE_READ (R10). -/
def execPhaseRead (o : Origin) (b : Body Unit) (s : State) : Result := s.runCall .phaseRead o b ownPhaseRead

/-- PHASE_FORCE (R16). -/
def execPhaseForce (o : Origin) (b : Body PhaseForceArgs) (s : State) : Result := s.runCall .phaseForce o b ownPhaseForce

/-- PHASE_EXTEND (R17). -/
def execPhaseExtend (o : Origin) (b : Body PhaseExtendArgs) (s : State) : Result :=
  s.runCall .phaseExtend o b ownPhaseExtend

/-- PHASE_RELEASE (R18). -/
def execPhaseRelease (o : Origin) (b : Body Unit) (s : State) : Result := s.runCall .phaseRelease o b ownPhaseRelease

/-- PHASE_WRITE (R28, R37). -/
def execPhaseWrite (o : Origin) (b : Body PhaseWriteArgs) (s : State) : Result :=
  s.runCall .phaseWrite o b (ownPhaseWrite o.link)

/-- SCENE_WRITE (R29, R38). -/
def execSceneWrite (o : Origin) (b : Body SceneWriteArgs) (s : State) : Result :=
  s.runCall .sceneWrite o b (ownSceneWrite o.link)

/-- STAGED_READ (R35). -/
def execStagedRead (o : Origin) (b : Body IndexArgs) (s : State) : Result := s.runCall .stagedRead o b ownStagedRead

/-- STAGED_DISCARD (R36). -/
def execStagedDiscard (o : Origin) (b : Body Unit) (s : State) : Result :=
  s.runCall .stagedDiscard o b ownStagedDiscard

/-- PHASE_TABLE_READ (R39). -/
def execPhaseTableRead (o : Origin) (b : Body PhaseTableReadArgs) (s : State) : Result :=
  s.runCall .phaseTableRead o b ownPhaseTableRead

/-- SCENE_READ (R39). -/
def execSceneRead (o : Origin) (b : Body SceneReadArgs) (s : State) : Result := s.runCall .sceneRead o b ownSceneRead

end Sys2Proof.Machine
end

