-- ==== Sys2Proof/Machine/Lines.lean ====
section
/-! DEFINITION. The Line Unit (R147 to R156): the scan with its deliveries and driven levels, the owners of lines, and
the calls that configure, drive and read them. -/

namespace Sys2Proof.Machine

/-! ### Boards and levels -/

/-- The board position a line belongs to (R147). -/
def boardOf (l : Fin 192) : Fin 6 := ⟨l.val / 32, by omega⟩

/-- The place of a line among its board's 32 points. -/
def pointOf (l : Fin 192) : Nat := l.val % 32

/-- The board of a line. -/
def Lines.board (x : Lines) (l : Fin 192) : Board := x.boards.get (boardOf l)

/-- A board after a scan (R148): a good return is taken, a bad one counted. An absent board is not scanned. -/
def Board.scanned (b : Board) (levels : Option Quad) : Board :=
  if b.present then
    match levels with
    | some q => { b with captured := some q, consecutive := 0 }
    | none => { b with bad := satAdd Config.max16 b.bad 1, consecutive := satAdd Config.max16 b.consecutive 1 }
  else b

/-- The level an OUTPUT line drives its point to (R149). -/
def Line.drive (x : Line) : Bool := x.latch != x.config.invert

/-- A line as a scan leaves it: an OUTPUT line of a present board driven, any other point undriven (R147, R151). -/
def Line.scanned (x : Line) (present : Bool) : Line :=
  { x with driven := if present ∧ x.config.mode = .output then some x.drive else none }

/-- Whether the level last captured for a line reads active after its invert; inactive before the first good scan
(R148, R149). -/
def Lines.active (x : Lines) (l : Fin 192) : Bool :=
  match (x.board l).captured with
  | none => false
  | some q => q.getLsbD (pointOf l) != (x.lines.get l).config.invert

/-- A level delivered to the owner of an input function (R152). -/
def State.deliver (s : State) (b : Binding) (active : Bool) : State :=
  match b with
  | .doorContact d => s.deliverDoor d active
  | .trailer d => s.deliverTrailer d active
  | .occupancy g => s.deliverOccupancy g active
  | .heat .. | .fan .. | .curtain .. | .spareIn | .spareOut => s

/-- A line's delivery at a scan: INPUT lines of present boards (R152). -/
def State.deliverLine (s : State) (l : Fin 192) : State :=
  let c := (s.lines.lines.get l).config
  if c.mode = .input ∧ (s.lines.board l).present then s.deliver c.binding (s.lines.active l) else s

/-- A scan: outputs driven and levels captured on every present board, then the deliveries in line order (R147, R148,
R152). -/
def State.scan (s : State) (capture : Capture) : State :=
  let x := s.lines
  let t : State := { s with lines := { x with
    boards := x.boards.mapIdx fun b y => y.scanned (capture.get b)
    lines := x.lines.mapIdx fun l y => y.scanned (x.board l).present } }
  t.forEach 192 fun l t => t.deliverLine l

/-! ### Bindings and their owners (R149, R150) -/

/-- The binding a call names, none when an argument lies outside its range (R149). -/
def bindingOf : RawBinding → Option Binding
  | .doorContact d => (row 32 d).map .doorContact
  | .trailer d => (row 32 d).map .trailer
  | .occupancy g => (row 24 g).map .occupancy
  | .heat z i => if 1 ≤ i.toNat ∧ i.toNat ≤ 4 then (row 8 z).map fun z => .heat z i.toNat else none
  | .fan z i => if 1 ≤ i.toNat ∧ i.toNat ≤ 3 then (row 8 z).map fun z => .fan z i.toNat else none
  | .curtain c => (row 16 c).map .curtain
  | .spareIn => some .spareIn
  | .spareOut => some .spareOut
  | .noSuchFunction => none

/-- The mode a function needs (R150). -/
def Binding.mode : Binding → LineMode
  | .doorContact _ | .trailer _ | .occupancy _ | .spareIn => .input
  | .heat .. | .fan .. | .curtain _ | .spareOut => .output

/-- A function that may stand on one line only (R150). -/
def Binding.exclusive : Binding → Bool
  | .doorContact _ | .trailer _ | .occupancy _ => true
  | .heat .. | .fan .. | .curtain _ | .spareIn | .spareOut => false

/-- Whether the owner of a function is active (R150). -/
def State.ownerActive (s : State) : Binding → Bool
  | .doorContact d | .trailer d => (s.channel d).state != .unused
  | .occupancy g => (s.lighting.groups.get g).state != .disabled
  | .heat z _ | .fan z _ => s.zoneMode z != .off
  | .curtain c => (s.doors.curtains.get c).state != .idle
  | .spareIn | .spareOut => false

/-- The four conditions on a binding (R150). -/
def State.mayBind (s : State) (l : Fin 192) (mode : LineMode) (b : Binding) : Bool :=
  b.mode == mode
    && !(b.exclusive && (indices 192).any fun k => k != l && (s.lines.lines.get k).config.binding == b)
    && ((s.lines.board l).present || b == .spareIn)

/-! ### Calls -/

def State.setLine (s : State) (l : Fin 192) (x : Line) : State :=
  { s with lines := { s.lines with lines := s.lines.lines.set l x } }

/-- What losing a line does to an owner (R151). -/
def State.unbound (s : State) : Binding → State
  | .doorContact d => s.setChannel d { s.channel d with doorPending := none }
  | .trailer d => s.setChannel d { s.channel d with trailer := false, trailerSettled := false, trailerPending := none }
  | .occupancy _ | .heat .. | .fan .. | .curtain _ | .spareIn | .spareOut => s

/-- A configured channel initialised because its contact or trailer sensor became bound (R41, R151). -/
def State.boundChannel (s : State) (d : Fin 32) : State :=
  let x := s.channel d
  if x.config.configured then (s.setChannel d x.initialise).reevaluateOf x.config.curtain else s

/-- What gaining a line does to an owner (R131, R151). -/
def State.newlyBound (s : State) : Binding → State
  | .doorContact d => s.boundChannel d
  | .trailer d => s.boundChannel d
  | .occupancy g => s.setGroup g { s.lighting.groups.get g with lastOccupancy := false }
  | .heat .. | .fan .. | .curtain _ | .spareIn | .spareOut => s

/-- LINE_CONFIG (R151). The conditions of R150 are judged first (assumption 17). DESIGN CHOICE: a call that writes the binding
the line already has binds nothing anew, so an occupancy line keeps its previous delivery (assumption 51). -/
def ownLineConfig (a : LineConfigArgs) (s : State) : Taken :=
  match row 192 a.line, a.mode, bindingOf a.binding with
  | some l, some mode, some b =>
    if s.mayBind l mode b then
      let x := s.lines.lines.get l
      let old := x.config.binding
      if s.ownerActive old || s.ownerActive b then .turnedAway s .active
      else
        let c : LineConfig := ⟨mode, a.pullUp, a.invert, b⟩
        let latch := (s.functionOn b).getD x.latch
        { state := s.setLine l { x with config := c, latch := latch }
          reply := ⟨.ok, .line c latch⟩
          after := fun t => if b = old then t else (t.unbound old).newlyBound b }
    else .turnedAway s .range
  | _, _, _ => .turnedAway s .range

/-- LINE_DRIVE (R154). -/
def ownLineDrive (a : LineDriveArgs) (s : State) : Taken :=
  match row 192 a.line with
  | none => .turnedAway s .range
  | some l =>
    let x := s.lines.lines.get l
    if x.config.binding = .spareOut ∨ x.config.binding = .spareIn then
      { state := s.setLine l { x with latch := a.on }, reply := ⟨.ok, .latch a.on⟩ }
    else .turnedAway s .range

/-- The level LINE_READ reports as captured: low on an absent board, a free value on a present board that has given no
good scan since the reset (R155, assumption 15). -/
def Lines.capturedLevel (x : Lines) (l : Fin 192) : Bool :=
  match (x.board l).present, (x.board l).captured with
  | false, _ => false
  | true, none => Config.unscannedLevel l.val
  | true, some q => q.getLsbD (pointOf l)

/-- LINE_READ (R155). -/
def ownLineRead (a : IndexArgs) (s : State) : Taken :=
  match row 192 a.index with
  | none => .turnedAway s .range
  | some l =>
    let x := s.lines.lines.get l
    let b := s.lines.board l
    let high := s.lines.capturedLevel l
    .report s (.lineRead
      { config := x.config, latch := x.latch, high := high, active := high != x.config.invert, present := b.present
        stranded := !b.present, bad := b.bad, consecutive := b.consecutive })

/-! ### Meanings -/

/-- LINE_CONFIG (R150, R151). -/
def execLineConfig (o : Origin) (b : Body LineConfigArgs) (s : State) : Result := s.runCall .lineConfig o b ownLineConfig

/-- LINE_DRIVE (R154). -/
def execLineDrive (o : Origin) (b : Body LineDriveArgs) (s : State) : Result := s.runCall .lineDrive o b ownLineDrive

/-- LINE_READ (R155). -/
def execLineRead (o : Origin) (b : Body IndexArgs) (s : State) : Result := s.runCall .lineRead o b ownLineRead

end Sys2Proof.Machine
end

