-- ==== Sys2Proof/Machine/Links.lean ====
section
/-! DEFINITION. The Link Interface's own rows (R158 to R170): the receivers, hold and release, the transmitters, unknown
calls, the attention flags and IDENT. -/

namespace Sys2Proof.Machine

/-! ### The links -/

/-- A link of a state. -/
def State.link (s : State) (l : Link) : LinkState := s.links.link l

/-- A link of a state replaced. -/
def State.setLink (s : State) (l : Link) (x : LinkState) : State := { s with links := s.links.setLink l x }

/-- A hold byte taken while HUNTING: the transmitter finishes the frame it is sending and sends nothing more (R161). -/
def LinkState.hold (x : LinkState) : LinkState := { x with held := true }

/-- A release byte taken while HUNTING: the transmitter resumes with the oldest frame (R161). -/
def LinkState.release (x : LinkState) : LinkState := { x with held := false, sending := !x.queue.isEmpty }

/-- A byte as a HUNTING receiver takes it (R160). -/
def LinkState.hunt (x : LinkState) (b : Byte) : LinkState :=
  if b = 0x7E then { x with receiver := .receiving }
  else if b = 0x13 then x.hold
  else if b = 0x11 then x.release
  else x

/-- A frame discarded while RECEIVING: the receiver hunts again, and a byte that came late is taken as hunting takes it
(R160). -/
def LinkState.discard (x : LinkState) : DiscardCause → LinkState
  | .lateByte b => LinkState.hunt { x with receiver := .hunting } b
  | .badLength | .badStopBit | .badCheck | .notACall => { x with receiver := .hunting }

/-- The frame being sent leaves the queue; the next begins unless the link is held (R161, R163). -/
def LinkState.sent (x : LinkState) : LinkState :=
  if x.sending then { x with queue := x.queue.tail, sending := !x.held && !x.queue.tail.isEmpty } else x

/-- A hold or release byte, or a start byte, counts only while the receiver is HUNTING (R160, R161). -/
def State.whenHunting (s : State) (l : Link) (f : LinkState → LinkState) : State :=
  if (s.link l).receiver = .hunting then s.setLink l (f (s.link l)) else s

/-- A call of an unknown kind (R162, step 1); discarded once a RESTART is accepted (R170). -/
def State.takeUnknown (s : State) (o : Origin) (kind : Byte) : State :=
  let s := s.setReceiver o.link .hunting
  if s.links.restart.isNone ∧ isCallCode kind ∧ (kindOf kind).isNone then s.answerCode kind o (replyOnly .unknown)
  else s

/-! ### Flags and identity -/

/-- The flags and enables as an answer carries them (R167). -/
def State.flagsReply (s : State) : Reply := ⟨.ok, .flags s.links.flags s.links.enables⟩

/-- FLAGS_READ (R167). -/
def ownFlagsRead (_ : Unit) (s : State) : Taken := { state := s, reply := s.flagsReply }

/-- FLAGS_CLEAR (R167). -/
def ownFlagsClear (a : FlagSetArgs) (s : State) : Taken :=
  let t : State := { s with links := { s.links with flags := s.links.flags &&& ~~~a.flags } }
  { state := t, reply := t.flagsReply }

/-- FLAGS_ENABLE (R167). -/
def ownFlagsEnable (a : FlagSetArgs) (s : State) : Taken :=
  let t : State := { s with links := { s.links with enables := a.flags } }
  { state := t, reply := t.flagsReply }

/-- The area being written while SAVING. -/
def Saving.area : Saving → Area
  | .commissioning .. => .commissioning
  | .operating .. => .operating

/-- The save state and area statuses as reported (R169, R175). -/
def Store.report (x : Store) : StoreReport := ⟨x.saving.map Saving.area, x.commStatus, x.operStatus⟩

/-- IDENT (R169): the codes fixed in the part, the board presence, and the store status. -/
def ownIdent (_ : Unit) (s : State) : Taken :=
  .report s (.ident Config.vendorCode Config.partCode Config.revisionLetter (s.lines.boards.map Board.present)
    s.store.report)

/-! ### Meanings -/

/-- LINK_HOLD (R161). -/
def execLinkHold (l : Link) (s : State) : Result := s.run fun s => s.whenHunting l LinkState.hold

/-- LINK_RELEASE (R161). -/
def execLinkRelease (l : Link) (s : State) : Result := s.run fun s => s.whenHunting l LinkState.release

/-- FRAME_BEGINS (R160). -/
def execFrameBegins (l : Link) (s : State) : Result :=
  s.run fun s => s.whenHunting l fun x => { x with receiver := .receiving }

/-- FRAME_DISCARDED (R160): silent; it happens to a RECEIVING receiver only. -/
def execFrameDiscarded (l : Link) (c : DiscardCause) (s : State) : Result :=
  s.run fun s => if (s.link l).receiver = .receiving then s.setLink l ((s.link l).discard c) else s

/-- FRAME_SENT (R163). -/
def execFrameSent (l : Link) (s : State) : Result := s.run fun s => s.setLink l (s.link l).sent

/-- UNKNOWN_CALL (R162). -/
def execUnknownCall (o : Origin) (kind : Byte) (s : State) : Result := s.run fun s => s.takeUnknown o kind

/-- IDENT (R169). -/
def execIdent (o : Origin) (b : Body Unit) (s : State) : Result := s.runCall .ident o b ownIdent

/-- FLAGS_READ (R167). -/
def execFlagsRead (o : Origin) (b : Body Unit) (s : State) : Result := s.runCall .flagsRead o b ownFlagsRead

/-- FLAGS_CLEAR (R167). -/
def execFlagsClear (o : Origin) (b : Body FlagSetArgs) (s : State) : Result := s.runCall .flagsClear o b ownFlagsClear

/-- FLAGS_ENABLE (R167). -/
def execFlagsEnable (o : Origin) (b : Body FlagSetArgs) (s : State) : Result := s.runCall .flagsEnable o b ownFlagsEnable

end Sys2Proof.Machine
end

