-- ==== Sys2Proof/Machine/Settings.lean ====
section
/-! DEFINITION. The Settings Store and the resets (R147, R157, R170 to R177): saving the two areas, KEY, start-up from the
stored areas or the defaults, RESTART, and the rows of power and reset. -/

namespace Sys2Proof.Machine

/-! ### Snapshots (R171, R173) -/

/-- The commissioning tables as they stand. -/
def State.commissioning (s : State) : Commissioning where
  zones    := s.climate.zones.map Zone.config
  doors    := s.doors.channels.map Channel.config
  curtains := s.doors.curtains.map Curtain.config
  nodes    := s.sensors.nodes.map Node.config
  map      := s.sensors.map
  ratings  := s.budget.ratings
  groups   := s.lighting.groups.map Group.config
  lines    := s.lines.lines.map Line.config

/-- The operating tables as they stand; edits staged and not applied are no part of them. -/
def State.operating (s : State) : Operating where
  entries        := s.calendar.entries
  noClock        := s.calendar.noClock
  leadRate       := s.calendar.leadRate
  params         := s.calendar.params
  scenes         := s.calendar.scenes
  busy           := s.doors.busy
  quiet          := s.doors.quiet
  notices        := s.doors.notices
  stale          := s.sensors.stale
  degrade        := s.sensors.degrade
  assumed        := s.sensors.assumed
  setting        := s.climate.setting
  g1             := s.climate.g1
  g2             := s.climate.g2
  g3             := s.climate.g3
  deviationLimit := s.climate.deviationLimit
  minOn          := s.budget.minOn
  minOff         := s.budget.minOff
  luxStart       := s.lighting.luxStart
  gain           := s.lighting.gain
  enables        := s.links.enables

/-! ### Saving (R173, R174) -/

/-- The Settings Store of a state replaced. -/
def State.setStore (s : State) (x : Store) : State := { s with store := x }

/-- A save completed: its result recorded and STORE_RESULT offered (R174). -/
def State.finishSave (s : State) (r : SaveResult) : State :=
  (s.setStore { s.store with saving := none, lastResult := some r }).notify .supervisor (.storeResult r)

/-- The operating area follows the commissioning area when it was requested; otherwise the save is complete (R174). -/
def State.afterCommissioning (s : State) (outcome : AreaResult) : Option Operating → State
  | some next => s.setStore { s.store with saving := some (.operating next outcome) }
  | none => s.finishSave ⟨outcome, .notRequested⟩

/-- The commissioning area left DAMAGED (R174). -/
def State.spoilCommissioning (s : State) : State :=
  (s.setStore { s.store with commCopy := .spoiled, commStatus := .damaged }).raise .storeDamaged

/-- The operating area left DAMAGED (R174). -/
def State.spoilOperating (s : State) : State :=
  (s.setStore { s.store with operCopy := .spoiled, operStatus := .damaged }).raise .storeDamaged

/-- The end of the write and read-back of the area being written; `agrees` is the outcome of the check (R174). -/
def State.areaWritten (s : State) (agrees : Bool) : State :=
  match s.store.saving with
  | none => s
  | some (.commissioning snapshot next) =>
    if agrees then
      (s.setStore { s.store with commCopy := .good snapshot, commStatus := .valid }).afterCommissioning .valid next
    else s.spoilCommissioning.afterCommissioning (.damaged .check) next
  | some (.operating snapshot done) =>
    if agrees then
      (s.setStore { s.store with operCopy := .good snapshot, operStatus := .valid }).finishSave ⟨done, .valid⟩
    else s.spoilOperating.finishSave ⟨done, .damaged .check⟩

/-- The level of the KEY pin seen. A low level during the commissioning write abandons it at once (R174). -/
def State.seeKey (s : State) (key : Bool) : State :=
  let t := s.setStore { s.store with key := key }
  match key, s.store.saving with
  | false, some (.commissioning _ next) => t.spoilCommissioning.afterCommissioning (.damaged .key) next
  | _, _ => t

/-- STORE_SAVE, judged in the order of its table (R173). -/
def ownStoreSave (a : StoreSaveArgs) (s : State) : Taken :=
  if a.commissioning = false ∧ a.operating = false then .turnedAway s .range
  else if s.store.saving.isSome then .turnedAway s .busy
  else if a.commissioning = true ∧ s.store.key = false then .turnedAway s .locked
  else
    let next := if a.operating then some s.operating else none
    let saving := if a.commissioning then some (.commissioning s.commissioning next)
      else next.map fun o => .operating o .notRequested
    { state := s.setStore { s.store with saving := saving }, reply := replyOnly .ok }

/-- STORE_STATUS (R175). -/
def ownStoreStatus (_ : Unit) (s : State) : Taken :=
  .report s (.store s.store.report s.store.lastResult s.store.key)

/-! ### Start-up (R176, R177) -/

/-- The contents handed from an area's stored copy: the copy when its check agrees, else the defaults (R176). -/
def Copy.contents {α : Type} (default : α) : Copy α → α
  | .good c => c
  | .erased | .spoiled => default

/-- An area judged at start-up (R172). -/
def Copy.status {α : Type} : Copy α → AreaStatus
  | .good _ => .valid
  | .erased => .blank
  | .spoiled => .damaged

/-- The setpoints of the six records clamped into the zones' limits (R25, R176). -/
def clampedParams (zones : Table 8 ZoneConfig) (p : Table 6 PhaseParams) : Table 6 PhaseParams :=
  p.map fun x => { x with setpoints := x.setpoints.mapIdx fun z v => (zones.get z).clampSetpoint v }

/-- The clock a reset leaves: kept when it is to be kept and was RUNNING, otherwise UNSET at 0 (R2). -/
def State.clockAfter (s : State) (keep : Bool) : Clock := if keep && s.clock.running then s.clock else ⟨0, 0, false⟩

/-- The phase record a reset leaves (R8). -/
def recordAfter (k : Clock) (x : Operating) : PhaseRecord :=
  if k.running then ⟨lookup x.entries x.noClock (minuteOfWeek k.weekSecond), .calendar, k.weekSecond, none⟩
  else ⟨x.noClock, .noClock, 0, none⟩

/-- The mode a zone starts in (R83): a defaulted zone starts OFF, its default start mode. -/
def ZoneConfig.firstMode (c : ZoneConfig) : ZoneMode :=
  match c.startMode with
  | .off => .off
  | .auto => .auto

/-- Every block's records as a reset leaves them, before the events of start-up: from the tables handed, the clock and
the boards that answered the identification pass (R147, R176). The queue of commands that wait is no part of the
machine and is kept. -/
def State.reinitialised (s : State) (boards : BitVec 6) (k : Clock) : State :=
  let x := s.store.commCopy.contents Commissioning.default
  let y := s.store.operCopy.contents Operating.default
  let r := recordAfter k y
  let params := clampedParams x.zones y.params
  { power := .running
    clock := k
    calendar :=
      { entries := y.entries, noClock := y.noClock, leadRate := y.leadRate, record := r, staging := []
        params := params, scenes := y.scenes }
    doors :=
      { channels := x.doors.map Channel.initial, curtains := x.curtains.map Curtain.initial
        rings := Table.fill 8 Ring.initial, forecasts := [], queue := [], busy := y.busy, quiet := y.quiet
        notices := y.notices }
    sensors :=
      { nodes := x.nodes.map Node.initial, map := x.map, stale := y.stale, degrade := y.degrade, assumed := y.assumed
        polled := none, roundMark := false }
    climate :=
      { zones := x.zones.map fun c => ⟨c, c.firstMode, 0, 0, .initial⟩, timer := 0, setting := y.setting, cycles := 0
        g1 := y.g1, g2 := y.g2, g3 := y.g3, deviationLimit := y.deviationLimit, deviation := 0, deficit := 0 }
    budget :=
      { phaseCap := (params.get (phaseIndex r.phase)).cap, supCap := none, ratings := x.ratings, minOn := y.minOn
        minOff := y.minOff, zones := Table.fill 8 ZoneGrant.initial, groups := Table.fill 24 ⟨0, 0, 0⟩
        demand := none, reserved := 0, total := 0, passes := 0 }
    lighting :=
      { groups := x.groups.map Group.dark, luxStart := y.luxStart, gain := y.gain
        taken := ⟨.lost, y.luxStart, y.gain⟩ }
    lines :=
      { lines := x.lines.map fun c => ⟨c, false, none⟩
        boards := Table.ofFn fun i : Fin 6 => Board.initial (boards.getLsbD i.val)
        dimmers := Table.fill 24 0 }
    store :=
      { s.store with
        commStatus := s.store.commCopy.status, operStatus := s.store.operCopy.status, saving := none
        lastResult := none }
    accounts := ⟨.begin k.weekSecond k.running r.phase, none⟩
    links :=
      { supervisor := .initial, panel := .initial, flags := 0, enables := y.enables, restart := none }
    owed := []
    pending := s.pending }

/-- Start-up: the records reinitialised, then CLOCK_UNSET where the clock is UNSET, STORE_DAMAGED for a damaged area, the
mode event of every zone's starting mode, the groups started and the first poll sent (R2, R71, R83, R130, R176; their
order is assumption 33). -/
def State.startUp (s : State) (boards : BitVec 6) (keep : Bool) : State :=
  let k := s.clockAfter keep
  let t := s.reinitialised boards k
  let t := t.raiseIf (!k.running) .clockUnset
  let t := t.raiseIf (t.store.commStatus == .damaged) .storeDamaged
  let t := t.raiseIf (t.store.operStatus == .damaged) .storeDamaged
  ((t.forEach 8 fun z t => t.modeEvent z).startLights).startRound

/-- A save cut short by a loss of power or a reset of the whole part: the area being written no longer agrees with its
check (R172, R176). -/
def State.cutShort (s : State) : State :=
  match s.store.saving with
  | none => s
  | some (.commissioning ..) => s.setStore { s.store with commCopy := .spoiled, saving := none }
  | some (.operating ..) => s.setStore { s.store with operCopy := .spoiled, saving := none }

/-! ### RESTART (R170, R177) -/

/-- RESTART: refused BUSY while SAVING; otherwise accepted, and no further call is taken and no notice sent. -/
def ownRestart (l : Link) (a : RestartArgs) (s : State) : Taken :=
  if s.store.saving.isSome then .turnedAway s .busy
  else
    { state := { s with links := { s.links with restart := some ⟨a.keepClock, l, s.answerJoins l⟩ } }
      reply := replyOnly .ok }

/-- The reset of an accepted RESTART may take effect: its answer found no room, or has been sent in full. No frame joins
a queue behind that answer, so it has been sent when the queue of its link is empty (R170). DESIGN CHOICE: a link held while
the answer is being sent does not delay the reset past the answer's last byte (assumption 62). -/
def LinkInterface.restartDue (i : LinkInterface) : Option RestartPending :=
  match i.restart with
  | none => none
  | some r => if r.queued = false ∨ (i.link r.link).queue.isEmpty then some r else none

/-- The reset takes effect (R170, R177). -/
def State.restartNow (s : State) (boards : BitVec 6) : State :=
  match s.links.restartDue with
  | none => s
  | some r => s.startUp boards r.keepClock

/-! ### Meanings -/

/-- POWER_ON (R157, R176): a power-on start-up, whatever the part was doing. -/
def execPowerOn (boards : BitVec 6) (s : State) : Result := .next (s.cutShort.startUp boards false)

/-- RESET_TAKES_EFFECT (R170). -/
def execResetTakesEffect (boards : BitVec 6) (s : State) : Result := s.run (·.restartNow boards)

/-- LOSS_OF_POWER (R176). -/
def execLossOfPower (s : State) : Result := .next { s.cutShort with power := .unsupplied }

/-- RESET_PIN_LOW (R157): the part is held in reset; a part without supply stays without. -/
def execResetPinLow (s : State) : Result :=
  .next { s.cutShort with power := if s.power = .unsupplied then .unsupplied else .resetHeld }

/-- AREA_WRITE_COMPLETE (R174). -/
def execAreaWriteComplete (agrees : Bool) (s : State) : Result := s.run (·.areaWritten agrees)

/-- KEY_FALL (R174). -/
def execKeyFall (s : State) : Result := s.run (·.seeKey false)

/-- STORE_SAVE with KEY as sampled (R173). What a low KEY brings precedes the answer (DESIGN CHOICE, assumption 45). -/
def execStoreSave (o : Origin) (b : Body StoreSaveArgs) (key : Bool) (s : State) : Result :=
  s.run fun s => (s.seeKey key).takeCall .storeSave o b ownStoreSave

/-- STORE_STATUS with KEY as sampled (R175). What a low KEY brings precedes the answer (DESIGN CHOICE, assumption 45). -/
def execStoreStatus (o : Origin) (b : Body Unit) (key : Bool) (s : State) : Result :=
  s.run fun s => (s.seeKey key).takeCall .storeStatus o b ownStoreStatus

/-- RESTART (R177). -/
def execRestart (o : Origin) (b : Body RestartArgs) (s : State) : Result := s.runCall .restart o b (ownRestart o.link)

end Sys2Proof.Machine
end

