-- ==== Sys2Proof/Machine/Time.lean ====
section
/-! DEFINITION. The tick (R1) and the events that fall at a second boundary. A record's second boundary that would bring an
event the opcode table names is owed until that command, or the next taking of what is due, comes (assumption 1). -/

namespace Sys2Proof.Machine

/-! ### Second boundaries of single records -/

/-- A record's whole second boundary. -/
def State.secondFor (s : State) : SecondOf → State
  | .override => s.overrideSecond
  | .cap => s.capSecond
  | .cycle => s.cycleSecond
  | .lighting => s.lightSecond
  | .door d => s.doorSecond d
  | .curtain c => s.curtainSecond c
  | .forecast d => s.forecastSecond d
  | .node n => s.nodeSecond n
  | .stages z => s.stageSecond z

/-- A record's second boundary would bring an event the opcode table names. -/
def State.bringsEvent (s : State) : SecondOf → Bool
  | .override => s.overrideEnding
  | .cap => s.capEnding
  | .cycle => s.cycleEnding
  | .lighting => s.lightEnding
  | .door d => s.holdingOpen d
  | .curtain c => s.runOnEnding c
  | .forecast d => s.windowEnding d
  | .node n => s.nodeNext n != (s.sensors.nodes.get n).status
  | .stages z => s.stageEnding z

/-- A second boundary delivered to a record: taken, or owed where it brings a named event. -/
def State.deliverSecond (s : State) (x : SecondOf) : State :=
  if s.bringsEvent x then { s with owed := s.owed ++ [x] } else s.secondFor x

/-- An owed second boundary taken. -/
def State.takeOwed (s : State) (x : SecondOf) : State := State.secondFor { s with owed := s.owed.erase x } x

/-- An owed second boundary taken by the command that names its event, when it is owed and the event is due. -/
def State.takeNamed (s : State) (x : SecondOf) (due : Bool) : State := if s.owed.contains x && due then s.takeOwed x else s

/-- Every settlement that waits, door by door, contact before trailer sensor (R42). -/
def State.takeSettlements (s : State) : State := s.forEach 32 fun d s => (s.settleDoor d).settleTrailer d

/-- Everything that is due: the settlements that wait, then the owed second boundaries in the order they were owed. -/
def State.takeDue (s : State) : State :=
  let t := s.takeSettlements
  t.owed.foldl State.secondFor { t with owed := [] }

/-! ### The tick (R1) -/

/-- The clock advanced by one tick, in either state (R1, R2). -/
def Clock.advance (k : Clock) : Clock :=
  if k.tick + 1 < Config.ticksPerSecond then { k with tick := k.tick + 1 }
  else { k with tick := 0, weekSecond := if k.weekSecond + 1 < Config.weekSeconds then k.weekSecond + 1 else 0 }

/-- The next tick brings a second boundary (R1). -/
def Clock.secondNext (k : Clock) : Bool := decide (Config.ticksPerSecond ≤ k.tick + 1)

/-- The next tick brings a minute boundary (R1). -/
def Clock.minuteNext (k : Clock) : Bool := k.secondNext && k.advance.weekSecond % 60 == 0

/-- One event of a tick, for a tick that brings these boundaries. -/
def State.tickEvent (capture : Capture) (second minute : Bool) (s : State) : TickEvent → State
  | .scan => s.scan capture
  | .takeDue => s.takeDue
  | .calendarMinute => if minute then s.calendarMinute else s
  | .clockMinute => if minute then s.clockMinute else s
  | .ringMinute => if minute then s.ringMinute else s
  | .overrideSecond => if second then s.deliverSecond .override else s
  | .doorSecond => if second then s.forEach 32 fun d s => s.deliverSecond (.door d) else s
  | .curtainSecond => if second then s.forEach 16 fun c s => s.deliverSecond (.curtain c) else s
  | .forecastSecond => if second then s.forEach 32 fun d s => s.deliverSecond (.forecast d) else s
  | .nodeSecond => if second then s.forEach 16 fun n s => s.deliverSecond (.node n) else s
  | .capSecond => if second then s.deliverSecond .cap else s
  | .stageSecond => if second then s.forEach 8 fun z s => s.deliverSecond (.stages z) else s
  | .lightSecond => if second then s.deliverSecond .lighting else s
  | .cycleSecond => if second then s.deliverSecond .cycle else s
  | .accountSecond => if second then s.accountSecond else s

/-- The events of a tick in the order taken where the command names none (assumption 2). -/
def defaultOrder : List TickEvent :=
  [.scan, .overrideSecond, .calendarMinute, .clockMinute, .doorSecond, .curtainSecond, .forecastSecond, .ringMinute,
   .nodeSecond, .capSecond, .stageSecond, .lightSecond, .cycleSecond, .accountSecond]

/-- The order of a tick's events: those named, each once, then the others. -/
def tickOrder (named : List TickEvent) : List TickEvent :=
  named.eraseDups ++ defaultOrder.filter fun e => !named.contains e

/-- A tick: what is still due from before, then the clock's advance, then the tick's events in order. -/
def State.tick (s : State) (capture : Capture) (order : List TickEvent) : State :=
  let t := s.takeDue
  let k := t.clock
  (tickOrder order).foldl (State.tickEvent capture k.secondNext k.minuteNext) { t with clock := k.advance }

/-! ### Meanings -/

/-- TICK (R1, R147). -/
def execTick (capture : Capture) (order : List TickEvent) (s : State) : Result := s.run (·.tick capture order)

/-- DOOR_HELD (R47). -/
def execDoorHeld (d : Fin 32) (s : State) : Result := s.run fun s => s.takeNamed (.door d) (s.holdingOpen d)

/-- RUN_ON_END (R53). -/
def execRunOnEnd (c : Fin 16) (s : State) : Result := s.run fun s => s.takeNamed (.curtain c) (s.runOnEnding c)

/-- WINDOW_END (R57). -/
def execWindowEnd (d : Fin 32) (s : State) : Result := s.run fun s => s.takeNamed (.forecast d) (s.windowEnding d)

/-- OVERRIDE_TIME_END (R18). -/
def execOverrideTimeEnd (s : State) : Result := s.run fun s => s.takeNamed .override s.overrideEnding

/-- CAP_EXPIRY (R108). -/
def execCapExpiry (s : State) : Result := s.run fun s => s.takeNamed .cap s.capEnding

/-- HOLD_EXPIRY (R133): the Lighting Unit's second boundary at which the group's hold reaches 0 (R138). -/
def execHoldExpiry (g : Fin 24) (s : State) : Result :=
  s.run fun s => s.takeNamed .lighting (s.lighting.groups.get g).holdEnding

/-- GROUP_OVERRIDE_END (R142): the Lighting Unit's second boundary at which the group's override ends (R138). -/
def execGroupOverrideEnd (g : Fin 24) (s : State) : Result :=
  s.run fun s => s.takeNamed .lighting (s.lighting.groups.get g).overrideEnding

/-- CYCLE_TIMER_EXPIRY (R88). -/
def execCycleTimerExpiry (s : State) : Result := s.run fun s => s.takeNamed .cycle s.cycleEnding

/-- MINIMUM_ON_END (R126). -/
def execMinimumOnEnd (z : Fin 8) (s : State) : Result := s.run fun s => s.takeNamed (.stages z) (s.stageEnding z)

/-- NODE_HELD (R74). -/
def execNodeHeld (n : Fin 16) (s : State) : Result :=
  s.run fun s => s.takeNamed (.node n) (s.nodeNext n == .held && (s.sensors.nodes.get n).status != .held)

/-- NODE_LOST (R75). -/
def execNodeLost (n : Fin 16) (s : State) : Result :=
  s.run fun s => s.takeNamed (.node n) (s.nodeNext n == .lost && (s.sensors.nodes.get n).status != .lost)

end Sys2Proof.Machine
end

