-- ==== Sys2Proof/Machine/Dispatch.lean ====
section
/-! DEFINITION. Each command's arm: one direct call of its meaning. -/

namespace Sys2Proof.Machine

def exec (i : Instr) (s : State) : Host.Outcome State Fault Refusal :=
  match i with
  | .powerOn boards => Sys2Proof.Machine.execPowerOn boards s
  | .resetTakesEffect boards => Sys2Proof.Machine.execResetTakesEffect boards s
  | .tick capture order => Sys2Proof.Machine.execTick capture order s
  | .firstSettlement door sensor => Sys2Proof.Machine.execFirstSettlement door sensor s
  | .doorOpened door => Sys2Proof.Machine.execDoorOpened door s
  | .doorClosed door => Sys2Proof.Machine.execDoorClosed door s
  | .settledTrailerEdge door => Sys2Proof.Machine.execSettledTrailerEdge door s
  | .doorHeld door => Sys2Proof.Machine.execDoorHeld door s
  | .runOnEnd curtain => Sys2Proof.Machine.execRunOnEnd curtain s
  | .windowEnd door => Sys2Proof.Machine.execWindowEnd door s
  | .overrideTimeEnd => Sys2Proof.Machine.execOverrideTimeEnd s
  | .capExpiry => Sys2Proof.Machine.execCapExpiry s
  | .holdExpiry group => Sys2Proof.Machine.execHoldExpiry group s
  | .groupOverrideEnd group => Sys2Proof.Machine.execGroupOverrideEnd group s
  | .cycleTimerExpiry => Sys2Proof.Machine.execCycleTimerExpiry s
  | .minimumOnEnd zone => Sys2Proof.Machine.execMinimumOnEnd zone s
  | .nodeHeld node => Sys2Proof.Machine.execNodeHeld node s
  | .nodeLost node => Sys2Proof.Machine.execNodeLost node s
  | .replyReceived reply => Sys2Proof.Machine.execReplyReceived reply s
  | .pollWaitEnd => Sys2Proof.Machine.execPollWaitEnd s
  | .linkHold link => Sys2Proof.Machine.execLinkHold link s
  | .linkRelease link => Sys2Proof.Machine.execLinkRelease link s
  | .frameDiscarded link cause => Sys2Proof.Machine.execFrameDiscarded link cause s
  | .frameSent link => Sys2Proof.Machine.execFrameSent link s
  | .unknownCall origin kind => Sys2Proof.Machine.execUnknownCall origin kind s
  | .areaWriteComplete agrees => Sys2Proof.Machine.execAreaWriteComplete agrees s
  | .keyFall => Sys2Proof.Machine.execKeyFall s
  | .clockSet origin body => Sys2Proof.Machine.execClockSet origin body s
  | .clockRead origin body => Sys2Proof.Machine.execClockRead origin body s
  | .calWrite origin body => Sys2Proof.Machine.execCalWrite origin body s
  | .calRead origin body => Sys2Proof.Machine.execCalRead origin body s
  | .calSettings origin body => Sys2Proof.Machine.execCalSettings origin body s
  | .phaseRead origin body => Sys2Proof.Machine.execPhaseRead origin body s
  | .phaseForce origin body => Sys2Proof.Machine.execPhaseForce origin body s
  | .phaseExtend origin body => Sys2Proof.Machine.execPhaseExtend origin body s
  | .phaseRelease origin body => Sys2Proof.Machine.execPhaseRelease origin body s
  | .phaseWrite origin body => Sys2Proof.Machine.execPhaseWrite origin body s
  | .sceneWrite origin body => Sys2Proof.Machine.execSceneWrite origin body s
  | .stagedRead origin body => Sys2Proof.Machine.execStagedRead origin body s
  | .stagedDiscard origin body => Sys2Proof.Machine.execStagedDiscard origin body s
  | .phaseTableRead origin body => Sys2Proof.Machine.execPhaseTableRead origin body s
  | .sceneRead origin body => Sys2Proof.Machine.execSceneRead origin body s
  | .doorConfig origin body => Sys2Proof.Machine.execDoorConfig origin body s
  | .doorRead origin body => Sys2Proof.Machine.execDoorRead origin body s
  | .curtainConfig origin body => Sys2Proof.Machine.execCurtainConfig origin body s
  | .arrivalForecast origin body => Sys2Proof.Machine.execArrivalForecast origin body s
  | .doorqThresholds origin body => Sys2Proof.Machine.execDoorqThresholds origin body s
  | .doorqNotices origin body => Sys2Proof.Machine.execDoorqNotices origin body s
  | .doorqRead origin body => Sys2Proof.Machine.execDoorqRead origin body s
  | .doorqFlush origin body => Sys2Proof.Machine.execDoorqFlush origin body s
  | .nodeConfig origin body => Sys2Proof.Machine.execNodeConfig origin body s
  | .nodeRead origin body => Sys2Proof.Machine.execNodeRead origin body s
  | .sourceMapWrite origin body => Sys2Proof.Machine.execSourceMapWrite origin body s
  | .sensorLimits origin body => Sys2Proof.Machine.execSensorLimits origin body s
  | .zoneConfig origin body => Sys2Proof.Machine.execZoneConfig origin body s
  | .zoneMode origin body => Sys2Proof.Machine.execZoneMode origin body s
  | .zoneManual origin body => Sys2Proof.Machine.execZoneManual origin body s
  | .cyclePeriod origin body => Sys2Proof.Machine.execCyclePeriod origin body s
  | .climateSettings origin body => Sys2Proof.Machine.execClimateSettings origin body s
  | .zoneRead origin body => Sys2Proof.Machine.execZoneRead origin body s
  | .capSet origin body => Sys2Proof.Machine.execCapSet origin body s
  | .capClear origin body => Sys2Proof.Machine.execCapClear origin body s
  | .ratingsWrite origin body => Sys2Proof.Machine.execRatingsWrite origin body s
  | .stageTimes origin body => Sys2Proof.Machine.execStageTimes origin body s
  | .budgetRead origin body => Sys2Proof.Machine.execBudgetRead origin body s
  | .groupConfig origin body => Sys2Proof.Machine.execGroupConfig origin body s
  | .lightSettings origin body => Sys2Proof.Machine.execLightSettings origin body s
  | .groupOverride origin body => Sys2Proof.Machine.execGroupOverride origin body s
  | .groupRelease origin body => Sys2Proof.Machine.execGroupRelease origin body s
  | .groupRead origin body => Sys2Proof.Machine.execGroupRead origin body s
  | .lineConfig origin body => Sys2Proof.Machine.execLineConfig origin body s
  | .lineDrive origin body => Sys2Proof.Machine.execLineDrive origin body s
  | .lineRead origin body => Sys2Proof.Machine.execLineRead origin body s
  | .ident origin body => Sys2Proof.Machine.execIdent origin body s
  | .flagsRead origin body => Sys2Proof.Machine.execFlagsRead origin body s
  | .flagsClear origin body => Sys2Proof.Machine.execFlagsClear origin body s
  | .flagsEnable origin body => Sys2Proof.Machine.execFlagsEnable origin body s
  | .storeSave origin body key => Sys2Proof.Machine.execStoreSave origin body key s
  | .storeStatus origin body key => Sys2Proof.Machine.execStoreStatus origin body key s
  | .restart origin body => Sys2Proof.Machine.execRestart origin body s
  | .shiftRead origin body => Sys2Proof.Machine.execShiftRead origin body s
  | .frameBegins link => Sys2Proof.Machine.execFrameBegins link s
  | .lossOfPower => Sys2Proof.Machine.execLossOfPower s
  | .resetPinLow => Sys2Proof.Machine.execResetPinLow s

end Sys2Proof.Machine
end

