-- ==== Sys2Proof/Safety.lean ====
section
/-! DEFINITION. What the claims about every step speak of: the bounds the manual states for the clock, the queues, the
staging list and the forecast table, and the order it keeps in the scenes and in pairs of settings. -/

namespace Sys2Proof.Machine

/-- The bounds of R1 (the clock's counts), R31 (the staging list, one edit for each key), R57 (the forecast table, one
entry for each door), R58 (the door event queue) and R163 (the outbound queues). -/
structure State.Bounded (s : State) : Prop where
  second    : s.clock.weekSecond < Config.weekSeconds
  tick      : s.clock.tick < Config.ticksPerSecond
  queues    : ∀ l, (s.links.link l).queue.length ≤ Config.queueFrames
  staging   : s.calendar.staging.length ≤ Config.stagingEdits
  keys      : (s.calendar.staging.map fun x => x.edit.key).Nodup
  records   : s.doors.queue.length ≤ Config.doorRecords
  forecasts : s.doors.forecasts.length ≤ Config.forecastEntries
  oneEach   : (s.doors.forecasts.map Forecast.door).Nodup

/-- A scene in order: the floor at most the vacant level, the vacant level at most the level, all at most 100 (R26). -/
def Scene.Ordered (x : Scene) : Prop := x.floor ≤ x.vacant ∧ x.vacant ≤ x.level ∧ x.level ≤ 100

/-- Every scene of a table in order (R26). -/
def ScenesOrdered (t : Table 6 (Table 24 Scene)) : Prop :=
  ∀ p g, ((t.get (phaseIndex p)).get g).Ordered

/-- Operating tables in order: the scenes (R26), the gas thresholds g1 < g2 < g3 (R95, R96), and the degrade limit above
the stale limit (R77). -/
structure Operating.Ordered (x : Operating) : Prop where
  scenes : ScenesOrdered x.scenes
  gas12  : x.g1 < x.g2
  gas23  : x.g2 < x.g3
  limits : x.stale < x.degrade

/-- A stored copy whose contents, when there are any to load, are in order. -/
def Copy.Ordered : Copy Operating → Prop
  | .good x => x.Ordered
  | .erased | .spoiled => True

/-- A save in progress whose operating snapshot, when it has one, is in order. -/
def Saving.Ordered : Saving → Prop
  | .commissioning _ next => ∀ x ∈ next, x.Ordered
  | .operating x _ => x.Ordered

/-- The operating tables are in order wherever they stand: in working memory, in the stored copy, and in a snapshot being
written. -/
structure State.SettingsOrdered (s : State) : Prop where
  working : s.operating.Ordered
  stored  : s.store.operCopy.Ordered
  saving  : ∀ x ∈ s.store.saving, x.Ordered

/-- No lamp group stands above its grant (R144): every group's output level is at most its granted level, a DISABLED group
is dark, and every dimmer channel carries its group's output level (R143, R156). -/
def State.LampsCapped (s : State) : Prop :=
  ∀ g, (s.lighting.groups.get g).output ≤ (s.lighting.groups.get g).granted
    ∧ ((s.lighting.groups.get g).state = .disabled →
        (s.lighting.groups.get g).output = 0 ∧ (s.lighting.groups.get g).desired = 0)
    ∧ s.lines.dimmers.get g = (s.lighting.groups.get g).output

/-- No lit group stands below its scene's floor (R144): of a group that is not DISABLED, the output level, and with it the
desired level, the granted level and the floor requested that the output follows, are at least the floor of the group's
scene in force. -/
def State.LampFloors (s : State) : Prop :=
  ∀ g, (s.lighting.groups.get g).state ≠ .disabled →
    (s.scene g).floor ≤ (s.lighting.groups.get g).output ∧ (s.scene g).floor ≤ (s.lighting.groups.get g).desired
    ∧ (s.scene g).floor ≤ (s.lighting.groups.get g).granted ∧ (s.scene g).floor ≤ (s.lighting.groups.get g).floorRequest

/-! ### Calls -/

/-- A command that is a complete call of a known kind: the kind, the origin, and whether the body holds the fields of its
kind (R162). -/
def callOf : Instr → Option (CallKind × Origin × Bool)
  | .clockSet o b => some (.clockSet, o, b.isSome)
  | .clockRead o b => some (.clockRead, o, b.isSome)
  | .calWrite o b => some (.calWrite, o, b.isSome)
  | .calRead o b => some (.calRead, o, b.isSome)
  | .calSettings o b => some (.calSettings, o, b.isSome)
  | .phaseRead o b => some (.phaseRead, o, b.isSome)
  | .phaseForce o b => some (.phaseForce, o, b.isSome)
  | .phaseExtend o b => some (.phaseExtend, o, b.isSome)
  | .phaseRelease o b => some (.phaseRelease, o, b.isSome)
  | .phaseWrite o b => some (.phaseWrite, o, b.isSome)
  | .sceneWrite o b => some (.sceneWrite, o, b.isSome)
  | .stagedRead o b => some (.stagedRead, o, b.isSome)
  | .stagedDiscard o b => some (.stagedDiscard, o, b.isSome)
  | .phaseTableRead o b => some (.phaseTableRead, o, b.isSome)
  | .sceneRead o b => some (.sceneRead, o, b.isSome)
  | .doorConfig o b => some (.doorConfig, o, b.isSome)
  | .doorRead o b => some (.doorRead, o, b.isSome)
  | .curtainConfig o b => some (.curtainConfig, o, b.isSome)
  | .arrivalForecast o b => some (.arrivalForecast, o, b.isSome)
  | .doorqThresholds o b => some (.doorqThresholds, o, b.isSome)
  | .doorqNotices o b => some (.doorqNotices, o, b.isSome)
  | .doorqRead o b => some (.doorqRead, o, b.isSome)
  | .doorqFlush o b => some (.doorqFlush, o, b.isSome)
  | .nodeConfig o b => some (.nodeConfig, o, b.isSome)
  | .nodeRead o b => some (.nodeRead, o, b.isSome)
  | .sourceMapWrite o b => some (.sourceMapWrite, o, b.isSome)
  | .sensorLimits o b => some (.sensorLimits, o, b.isSome)
  | .zoneConfig o b => some (.zoneConfig, o, b.isSome)
  | .zoneMode o b => some (.zoneMode, o, b.isSome)
  | .zoneManual o b => some (.zoneManual, o, b.isSome)
  | .cyclePeriod o b => some (.cyclePeriod, o, b.isSome)
  | .climateSettings o b => some (.climateSettings, o, b.isSome)
  | .zoneRead o b => some (.zoneRead, o, b.isSome)
  | .capSet o b => some (.capSet, o, b.isSome)
  | .capClear o b => some (.capClear, o, b.isSome)
  | .ratingsWrite o b => some (.ratingsWrite, o, b.isSome)
  | .stageTimes o b => some (.stageTimes, o, b.isSome)
  | .budgetRead o b => some (.budgetRead, o, b.isSome)
  | .groupConfig o b => some (.groupConfig, o, b.isSome)
  | .lightSettings o b => some (.lightSettings, o, b.isSome)
  | .groupOverride o b => some (.groupOverride, o, b.isSome)
  | .groupRelease o b => some (.groupRelease, o, b.isSome)
  | .groupRead o b => some (.groupRead, o, b.isSome)
  | .lineConfig o b => some (.lineConfig, o, b.isSome)
  | .lineDrive o b => some (.lineDrive, o, b.isSome)
  | .lineRead o b => some (.lineRead, o, b.isSome)
  | .ident o b => some (.ident, o, b.isSome)
  | .flagsRead o b => some (.flagsRead, o, b.isSome)
  | .flagsClear o b => some (.flagsClear, o, b.isSome)
  | .flagsEnable o b => some (.flagsEnable, o, b.isSome)
  | .storeSave o b _ => some (.storeSave, o, b.isSome)
  | .storeStatus o b _ => some (.storeStatus, o, b.isSome)
  | .restart o b => some (.restart, o, b.isSome)
  | .shiftRead o b => some (.shiftRead, o, b.isSome)
  | .powerOn .. | .resetTakesEffect .. | .tick .. | .firstSettlement .. | .doorOpened .. | .doorClosed .. | 
    .settledTrailerEdge .. | .doorHeld .. | .runOnEnd .. | .windowEnd .. | .overrideTimeEnd | .capExpiry | 
    .holdExpiry .. | .groupOverrideEnd .. | .cycleTimerExpiry | .minimumOnEnd .. | .nodeHeld .. | .nodeLost .. | 
    .replyReceived .. | .pollWaitEnd | .linkHold .. | .linkRelease .. | .frameDiscarded .. | .frameSent .. | 
    .unknownCall .. | .areaWriteComplete .. | .keyFall | .frameBegins .. | .lossOfPower | .resetPinLow => none

/-- A call of kind `k` from origin `o` reaches the block that owns it: the part runs, no RESTART has been accepted, and the
link may make the call (R157, R162, R165, R170). -/
structure State.Admits (s : State) (k : CallKind) (o : Origin) : Prop where
  running : s.power = .running
  open_   : s.links.restart = none
  may     : linkMay k o.link = true

/-- A state with one frame offered to a link that has just taken a whole frame: its receiver hunts again, and the answer
joins the end of its outbound queue while that holds fewer than 8, the transmitter of a released link starting (R160, R161,
R163). The other link, and everything else, is as it was. -/
def State.answeredCode (s : State) (kind : Byte) (o : Origin) (r : Reply) : State :=
  let x := s.links.link o.link
  let f : Frame := ⟨kind + 0x80, o.tag, .answer r⟩
  let y : LinkState :=
    if x.queue.length < 8 then ⟨.hunting, x.held, x.sending || !x.held, x.queue ++ [f]⟩
    else ⟨.hunting, x.held, x.sending, x.queue⟩
  { s with links := s.links.setLink o.link y }

/-- A state with a call of a known kind answered: the answer carries the call's kind plus 0x80 and its tag (R159, R162). -/
def State.answered (s : State) (k : CallKind) (o : Origin) (r : Reply) : State := s.answeredCode (kindCode k) o r

/-- A state with a call's frame taken and nothing said: its link's receiver hunts again (R160, R170). -/
def State.unanswered (s : State) (o : Origin) : State :=
  { s with links := s.links.setLink o.link { s.links.link o.link with receiver := .hunting } }

/-- The state in which a command's call is judged: STORE_SAVE and STORE_STATUS carry the KEY level seen as they arrive
(R173, R175). -/
def State.asSeen (s : State) : Instr → State
  | .storeSave _ _ key | .storeStatus _ _ key => s.seeKey key
  | _ => s

/-! ### Frames: what the events that ripple through several blocks leave alone -/

/-- A flag of one Link Interface is still set in another. -/
def LinkInterface.keepsFlags (a b : LinkInterface) : Prop := ∀ f, a.isSet f = true → b.isSet f = true

/-- What any run of offers, set events and notices leaves as it was, or within its bound (R158, R163, R166). -/
structure LinkInterface.Grows (a b : LinkInterface) : Prop where
  queues   : (∀ l, (a.link l).queue.length ≤ Config.queueFrames) → ∀ l, (b.link l).queue.length ≤ Config.queueFrames
  flags    : a.keepsFlags b
  receiver : ∀ l, (b.link l).receiver = (a.link l).receiver
  held     : ∀ l, (b.link l).held = (a.link l).held
  enables  : b.enables = a.enables
  restart  : b.restart = a.restart

/-- What stands outside the grants, the latches that follow them, a zone's results and modes, the curtains' states, the
forecasts and the lamp groups' levels: untouched by a control cycle and by everything the Load Allocator and the Lighting
Unit do in answer to one (R66, R91, R104, R114 to R126, R139, R140). -/
structure State.CycleOnly (s t : State) : Prop where
  power      : t.power = s.power
  clock      : t.clock = s.clock
  calendar   : t.calendar = s.calendar
  sensors    : t.sensors = s.sensors
  store      : t.store = s.store
  accounts   : t.accounts = s.accounts
  owed       : t.owed = s.owed
  pending    : t.pending = s.pending
  channels   : t.doors.channels = s.doors.channels
  rings      : t.doors.rings = s.doors.rings
  records    : t.doors.queue = s.doors.queue
  thresholds : t.doors.busy = s.doors.busy ∧ t.doors.quiet = s.doors.quiet ∧ t.doors.notices = s.doors.notices
  forecasts  : t.doors.forecasts.Sublist s.doors.forecasts
  curtains   : ∀ c, (t.doors.curtains.get c).config = (s.doors.curtains.get c).config
  boards     : t.lines.boards = s.lines.boards
  lines      : ∀ l, (t.lines.lines.get l).config = (s.lines.lines.get l).config
                 ∧ (t.lines.lines.get l).driven = (s.lines.lines.get l).driven
  latches    : ∀ l, (s.lines.lines.get l).config.mode = .input ∨ s.functionOn (s.lines.lines.get l).config.binding = none →
                 (t.lines.lines.get l).latch = (s.lines.lines.get l).latch
  light      : t.lighting.luxStart = s.lighting.luxStart ∧ t.lighting.gain = s.lighting.gain
                 ∧ t.lighting.taken = s.lighting.taken
  groups     : ∀ g, (t.lighting.groups.get g).config = (s.lighting.groups.get g).config
                 ∧ (t.lighting.groups.get g).state = (s.lighting.groups.get g).state
                 ∧ (t.lighting.groups.get g).hold = (s.lighting.groups.get g).hold
                 ∧ (t.lighting.groups.get g).override = (s.lighting.groups.get g).override
                 ∧ (t.lighting.groups.get g).lastOccupancy = (s.lighting.groups.get g).lastOccupancy
  caps       : t.budget.phaseCap = s.budget.phaseCap ∧ t.budget.supCap = s.budget.supCap
  ratings    : t.budget.ratings = s.budget.ratings
  times      : t.budget.minOn = s.budget.minOn ∧ t.budget.minOff = s.budget.minOff
  settings   : t.climate.setting = s.climate.setting ∧ t.climate.g1 = s.climate.g1 ∧ t.climate.g2 = s.climate.g2
                 ∧ t.climate.g3 = s.climate.g3 ∧ t.climate.deviationLimit = s.climate.deviationLimit
  zones      : ∀ z, (t.climate.zones.get z).config = (s.climate.zones.get z).config
                 ∧ (t.climate.zones.get z).manualHeat = (s.climate.zones.get z).manualHeat
                 ∧ (t.climate.zones.get z).manualFans = (s.climate.zones.get z).manualFans
  links      : s.links.Grows t.links

/-- What a pass, or any service of the Load Allocator between passes, leaves alone, together with the exchange of lighting
requests that its grants bring (R115 to R124, R139, R140): all that `CycleOnly` names, and the climate results, the last
demand set, the curtains' states, the forecasts and the groups' trims and desired levels. -/
structure State.GrantsOnly (s t : State) : Prop extends State.CycleOnly s t where
  climate  : t.climate = s.climate
  demand   : t.budget.demand = s.budget.demand
  curtain  : ∀ c, (t.doors.curtains.get c).state = (s.doors.curtains.get c).state
               ∧ (t.doors.curtains.get c).remaining = (s.doors.curtains.get c).remaining
  windows  : t.doors.forecasts = s.doors.forecasts
  desired  : ∀ g, (t.lighting.groups.get g).trim = (s.lighting.groups.get g).trim
               ∧ (t.lighting.groups.get g).desired = (s.lighting.groups.get g).desired

/-! ### Transitions and start-ups, as the blocks leave them -/

/-- Operating tables with the setpoints of their six records clamped into some zones' limits (R25, R176). -/
def Operating.clampedBy (x : Operating) (zones : Table 8 ZoneConfig) : Operating :=
  { x with params := clampedParams zones x.params }

/-- What a transition to phase `p` with source `src` and override `o` leaves, from the state in which its cause has settled
them (R9): the staging list applied and emptied, the phase record written, PHASE_CHANGED set, and the new record taken by
the Zone Climate Engine (a control cycle, R89, with its demand set, R104), the Lighting Unit (R145), the Door Unit (R47, R48,
R60), the Load Allocator (R106) and the Accounting Unit (R181). `mark` says that a match of a shift-start entry caused it. Of
what no field names, a transition moves grants alone, with the totals, the requests, the lamp levels and the latches of bound
outputs that follow them, and the curtains of a zone whose mode its cycle changed. -/
structure State.Transitioned (s t : State) (p : Phase) (src : Source) (o : Option Override) (mark : Bool) : Prop where
  calendar : t.calendar = { s.calendar.applyStaging s.setpointLimit with record := ⟨p, src, s.clock.weekSecond, o⟩ }
  staged   : t.calendar.staging = []
  changed  : t.links.isSet .phaseChanged = true
  climate  : t.climate = State.cycledClimate { s with calendar := t.calendar }
  demand   : t.budget.demand = some (t.climate.zones.map fun x =>
               ⟨x.mode, x.results.effective, x.results.heat, x.results.fans, x.results.gasFloor⟩)
  lights   : ∀ g, (t.lighting.groups.get g).config = (s.lighting.groups.get g).config
               ∧ (t.lighting.groups.get g).state = (s.lighting.groups.get g).state
               ∧ (t.lighting.groups.get g).hold = (s.lighting.groups.get g).hold
               ∧ (t.lighting.groups.get g).override = (s.lighting.groups.get g).override
               ∧ (t.lighting.groups.get g).lastOccupancy = (s.lighting.groups.get g).lastOccupancy
               ∧ (t.lighting.groups.get g).trim
                   = (s.lighting.groups.get g).trimNow (t.sceneOf p g) s.lighting.taken
               ∧ (t.lighting.groups.get g).desired
                   = (s.lighting.groups.get g).desiredNow (t.sceneOf p g) s.lighting.taken
  light    : t.lighting.luxStart = s.lighting.luxStart ∧ t.lighting.gain = s.lighting.gain
               ∧ t.lighting.taken = s.lighting.taken
  held     : ∀ d, (t.channel d).state = .opened →
               (t.paramsOf p).longOpen = 0 ∨ (t.channel d).interval < 60 * (t.paramsOf p).longOpen
  channels : ∀ d, t.channel d = { s.channel d with
                 state := (t.channel d).state, openings := (t.channel d).openings
                 openSeconds := (t.channel d).openSeconds, longest := (t.channel d).longest }
               ∧ ((t.channel d).state ≠ (s.channel d).state → (s.channel d).state = .opened ∧ (t.channel d).state = .held)
  stays    : ∀ d, (s.channel d).state = .opened →
               (t.paramsOf p).longOpen = 0 ∨ (s.channel d).interval < 60 * (t.paramsOf p).longOpen →
               (t.channel d).state = .opened
  heldFlag : (∃ d, (s.channel d).state = .opened ∧ (t.channel d).state = .held) → t.links.isSet .doorHeld = true
  tallies  : ∀ d, ((t.channel d).openings, (t.channel d).openSeconds, (t.channel d).longest)
               = if mark then (0, 0, 0) else ((s.channel d).openings, (s.channel d).openSeconds, (s.channel d).longest)
  records  : (∀ d, (t.channel d).state = (s.channel d).state) →
               ¬ (busyClass s.phase = true ∧ busyClass p = false ∧ s.doors.quiet < s.doors.busy) →
               t.doors.queue = s.doors.queue
  unsent   : s.doors.notices = false → t.doors.queue = s.doors.queue
               ++ (((indices 32).filter fun d => (s.channel d).state = .opened ∧ (t.channel d).state = .held).map fun d =>
                    ⟨d, .held, s.clock.weekSecond, p, none⟩).take (64 - s.doors.queue.length)
  rings    : t.doors.rings = s.doors.rings
  batching : t.doors.busy = s.doors.busy ∧ t.doors.quiet = s.doors.quiet ∧ t.doors.notices = s.doors.notices
  windows  : t.doors.forecasts = s.doors.forecasts.filter fun f =>
               ∀ z, (s.channel f.door).config.zone = some z → t.zoneMode z = s.zoneMode z ∨ t.zoneMode z = .auto
  curtains : ∀ c x, x = s.doors.curtains.get c → (t.doors.curtains.get c).config = x.config
               ∧ (t.zoneMode x.config.zone = s.zoneMode x.config.zone →
                   (t.doors.curtains.get c).state = x.state ∧ (t.doors.curtains.get c).remaining = x.remaining)
  phaseCap : t.budget.phaseCap = (t.paramsOf p).cap
  supCap   : t.budget.supCap = s.budget.supCap
  ratings  : t.budget.ratings = s.budget.ratings
  times    : t.budget.minOn = s.budget.minOn ∧ t.budget.minOff = s.budget.minOff
  accounts : t.accounts
               = if mark then ⟨.begin s.clock.weekSecond true p, some s.accounts.current⟩ else s.accounts
  clock    : t.clock = s.clock
  power    : t.power = s.power
  sensors  : t.sensors = s.sensors
  store    : t.store = s.store
  boards   : t.lines.boards = s.lines.boards
  lines    : ∀ l, (t.lines.lines.get l).config = (s.lines.lines.get l).config
               ∧ (t.lines.lines.get l).driven = (s.lines.lines.get l).driven
               ∧ ((s.lines.lines.get l).config.mode = .input
                   ∨ s.functionOn (s.lines.lines.get l).config.binding = none →
                 (t.lines.lines.get l).latch = (s.lines.lines.get l).latch)
  links    : s.links.Grows t.links
  owed     : t.owed = s.owed
  pending  : t.pending = s.pending

/-- What a power-on or a reset leaves (R2, R8, R40, R49, R51, R56, R58, R67, R71, R81, R83, R88, R103, R106, R112, R114, R115,
R127, R130, R131, R147, R149, R158, R166, R172, R176, R178): `k` is the clock it leaves, `boards` the positions that answered
the identification pass. The lamp groups' first requests are part of a start-up (R139), so a group's grant, the totals, the
pass count and OVERCAP stand as those requests leave them; with every group's rating 0 they are at 0 and clear. -/
structure State.StartedUp (s t : State) (boards : BitVec 6) (k : Clock) : Prop where
  power    : t.power = .running
  clock    : t.clock = k
  tables   : t.operating = (s.store.operCopy.contents Operating.default).clampedBy t.commissioning.zones
  config   : t.commissioning = s.store.commCopy.contents Commissioning.default
  record   : t.calendar.record =
               if k.running then ⟨lookup t.calendar.entries t.calendar.noClock (k.weekSecond / 60), .calendar, k.weekSecond, none⟩
               else ⟨t.calendar.noClock, .noClock, 0, none⟩
  staging  : t.calendar.staging = []
  channels : ∀ d, t.channel d = .initial (t.channel d).config
  rings    : t.doors.rings = Table.fill 8 .initial
  queue    : t.doors.queue = []
  windows  : t.doors.forecasts = []
  curtains : ∀ c, t.doors.curtains.get c = ⟨(t.doors.curtains.get c).config, .idle, none, false⟩
  nodes    : ∀ n, t.sensors.nodes.get n = .initial (t.sensors.nodes.get n).config
  poll     : t.sensors.polled = t.sensors.configuredFrom 0 ∧ t.sensors.roundMark = false
  zones    : ∀ z, t.climate.zones.get z
               = ⟨(t.climate.zones.get z).config, (t.climate.zones.get z).config.firstMode, 0, 0, .initial⟩
  figures  : t.climate.timer = 0 ∧ t.climate.cycles = 0 ∧ t.climate.deviation = 0 ∧ t.climate.deficit = 0
  caps     : t.budget.phaseCap = (t.paramsOf t.phase).cap ∧ t.budget.supCap = none ∧ t.budget.demand = none
  heaters  : ∀ z, t.budget.zones.get z = ⟨0, 0, Table.fill 4 0, 0, 0⟩
  levels   : ∀ g, (t.budget.groups.get g).floorRequest ≤ (t.budget.groups.get g).level
               ∧ (t.budget.groups.get g).level ≤ (t.budget.groups.get g).levelRequest
  unloaded : (∀ g, t.budget.ratings.groups.get g = 0) →
               t.budget.reserved = 0 ∧ t.budget.total = 0 ∧ t.budget.passes = 0
  groups   : ∀ g, (t.lighting.groups.get g).override = none ∧ (t.lighting.groups.get g).trim = 0
               ∧ (t.lighting.groups.get g).lastOccupancy = false ∧
               if (t.lighting.groups.get g).config.enabled
               then (t.lighting.groups.get g).state = .lit
                 ∧ (t.lighting.groups.get g).hold = (t.lighting.groups.get g).config.fullHold
                 ∧ (t.lighting.groups.get g).desired = max (t.scene g).floor (t.scene g).level
               else (t.lighting.groups.get g).state = .disabled ∧ (t.lighting.groups.get g).hold = none
                 ∧ (t.lighting.groups.get g).output = 0 ∧ (t.lighting.groups.get g).desired = 0
  lamps    : t.LampFloors
  daylight : t.lighting.taken = ⟨⟨.lost, none⟩, t.lighting.luxStart, t.lighting.gain⟩
  boards   : ∀ b, t.lines.boards.get b = .initial (boards.getLsbD b.val)
  undriven : ∀ l, (t.lines.lines.get l).driven = none
  latches  : ∀ l, (∀ z, (t.lines.lines.get l).config.binding ≠ .heat z 0 ∧ (t.lines.lines.get l).config.binding ≠ .fan z 0) →
               (t.lines.lines.get l).latch = false
  dimmers  : ∀ g, t.lines.dimmers.get g = (t.lighting.groups.get g).output
  store    : t.store = { s.store with
               commStatus := s.store.commCopy.status, operStatus := s.store.operCopy.status, saving := none,
               lastResult := none }
  accounts : t.accounts = ⟨.begin k.weekSecond k.running t.phase, none⟩
  links    : ∀ l, (t.links.link l).receiver = .hunting ∧ (t.links.link l).held = false
               ∧ (t.links.link l).queue.length ≤ 8
  panel    : t.links.panel.queue = [] ∧ t.links.panel.sending = false
  queued   : t.links.supervisor.sending = !t.links.supervisor.queue.isEmpty
               ∧ ∀ x ∈ t.links.supervisor.queue, ∃ f flags, x = ⟨0xF0, 0, .notice (.attention f flags t.links.enables)⟩
  clear    : ∀ f, t.links.isSet f = true → f = .clockUnset ∧ k.running = false
               ∨ f = .storeDamaged ∧ (s.store.commCopy = .spoiled ∨ s.store.operCopy = .spoiled)
               ∨ f = .overcap ∧ ∃ g, t.budget.ratings.groups.get g ≠ 0
  restart  : t.links.restart = none
  unset    : k.running = false → t.links.isSet .clockUnset = true
  damaged  : s.store.commCopy = .spoiled ∨ s.store.operCopy = .spoiled → t.links.isSet .storeDamaged = true
  owed     : t.owed = []
  pending  : t.pending = s.pending

end Sys2Proof.Machine
end

