-- ==== Sys2Proof/WellFormed.lean ====
section
/-! DEFINITION. Which terms of `Instr` the outside can bring about: an unknown call's kind is unknown, a tick names each
event once, and a call's lists fit in a frame's body (R159, R162). -/

namespace Sys2Proof
open Machine (kindOf isCallCode)

/-- The bytes an item of PHASE_WRITE takes. -/
def phaseItemBytes : PhaseItem → Nat
  | .setpoint .. => 3
  | .phaseCap _ => 3
  | .ventMinimum _ | .fallback _ | .longOpen _ => 2
  | .noSuchField => 1

/-- The bytes an item of SOURCE_MAP_WRITE takes. -/
def sourceItemBytes (i : SourceItem) : Nat :=
  let entry := match i.entry with
    | .temperature _ | .gas _ => 2
    | .outdoor | .daylight | .noSuchEntry => 1
  entry + (if i.node.isSome then 2 else 1)

/-- The bytes an item of RATINGS_WRITE takes. -/
def ratingItemBytes : RatingItem → Nat
  | .heater .. => 5
  | .fan .. | .curtain .. | .group .. => 4
  | .noSuchRating => 1

/-- The body bytes left for a call's list once its other fields and the list's count are taken out. -/
def listFits (other bytes count : Nat) : Bool := decide (other + 1 + bytes ≤ Config.bodyBytes) && decide (count ≤ 255)

/-- The terms the outside can bring about. -/
def Instr.wellFormed : Instr → Bool
  | .unknownCall _ kind => isCallCode kind && (kindOf kind).isNone
  | .tick _ order => decide order.Nodup
  | .phaseWrite _ (some a) => listFits 2 (a.items.map phaseItemBytes).sum a.items.length
  | .sourceMapWrite _ (some a) => listFits 0 (a.items.map sourceItemBytes).sum a.items.length
  | .ratingsWrite _ (some a) => listFits 0 (a.items.map ratingItemBytes).sum a.items.length
  | .powerOn .. | .resetTakesEffect .. | .firstSettlement .. | .doorOpened .. | .doorClosed .. |
    .settledTrailerEdge .. | .doorHeld .. | .runOnEnd .. | .windowEnd .. | .overrideTimeEnd | .capExpiry |
    .holdExpiry .. | .groupOverrideEnd .. | .cycleTimerExpiry | .minimumOnEnd .. | .nodeHeld .. | .nodeLost .. |
    .replyReceived .. | .pollWaitEnd | .linkHold .. | .linkRelease .. | .frameDiscarded .. | .frameSent .. |
    .areaWriteComplete .. | .keyFall | .clockSet .. | .clockRead .. | .calWrite .. | .calRead .. | .calSettings .. |
    .phaseRead .. | .phaseForce .. | .phaseExtend .. | .phaseRelease .. | .phaseWrite _ none | .sceneWrite .. |
    .stagedRead .. | .stagedDiscard .. | .phaseTableRead .. | .sceneRead .. | .doorConfig .. | .doorRead .. |
    .curtainConfig .. | .arrivalForecast .. | .doorqThresholds .. | .doorqNotices .. | .doorqRead .. |
    .doorqFlush .. | .nodeConfig .. | .nodeRead .. | .sourceMapWrite _ none | .sensorLimits .. | .zoneConfig .. |
    .zoneMode .. | .zoneManual .. | .cyclePeriod .. | .climateSettings .. | .zoneRead .. | .capSet .. |
    .capClear .. | .ratingsWrite _ none | .stageTimes .. | .budgetRead .. | .groupConfig .. | .lightSettings .. |
    .groupOverride .. | .groupRelease .. | .groupRead .. | .lineConfig .. | .lineDrive .. | .lineRead .. |
    .ident .. | .flagsRead .. | .flagsClear .. | .flagsEnable .. | .storeSave .. | .storeStatus .. | .restart .. |
    .shiftRead .. | .frameBegins .. | .lossOfPower | .resetPinLow => true

end Sys2Proof
end

