-- ==== Sys2Proof/Certificates/Slice0/Obligations.lean ====
section
/-! DEFINITION. The statements for the provers. Each docstring names the rules it rests on and, where it states a choice
of the model, the log entry of notes/assumptions that holds it. A call's answer is written `State.answered`: the call's
kind plus 0x80 and its tag offered to the link it came from, whose receiver hunts again. -/

open Sys2Proof Sys2Proof.Machine

/-! ### The queue of commands, and what holds in every state -/

/-- A step takes the command at the front of the queue and runs it with the rest of the queue left; an empty queue idles
(the model's own queue, assumption 4). -/
def Obligations.StepTakesFrontCommand : Prop :=
  (∀ (s : State) (c : Instr) (rest : List Instr), s.pending = c :: rest → step s = exec c { s with pending := rest })
  ∧ ∀ s : State, s.pending = [] → step s = .next s

/-- The invariants hold in the reset state: the bounds, the order of the settings, the lamp floors and the lamp caps. -/
def Claims.InvariantsHoldAtReset : Prop :=
  State.reset.Bounded ∧ State.reset.SettingsOrdered ∧ State.reset.LampFloors ∧ State.reset.LampsCapped

/-- The reset state is what a power-on makes of a part that was never commissioned, with no extender board fitted and KEY
low (assumption 8), whatever its working memory held before; and it holds the values of R2, R8 and R166. -/
def Claims.ResetIsFirstPowerOn : Prop :=
  exec (.powerOn 0) State.reset = .next State.reset
  ∧ State.reset.clock = ⟨0, 0, false⟩ ∧ State.reset.calendar.record = ⟨.work, .noClock, 0, none⟩
  ∧ (∀ f, State.reset.links.isSet f = true ↔ f = .clockUnset) ∧ State.reset.links.enables = 0b1111111111

/-- The reset state: the invariants hold in it, and it is what a first power-on makes (R2, R8, R166, assumption 8). -/
def Obligations.ResetState : Prop :=
  Claims.InvariantsHoldAtReset ∧ Claims.ResetIsFirstPowerOn

/-- INVARIANT. Every step keeps the clock in its range (R1), each outbound queue at no more than 8 frames (R163), the staging
list at no more than 16 edits with no two of one key (R31), the door event queue at no more than 64 records (R58) and the
forecast table at no more than eight entries, one for each door (R57). -/
def Obligations.StepKeepsBounded : Prop :=
  ∀ s t : State, s.Bounded → step s = .next t → t.Bounded

/-- INVARIANT. Every step keeps every scene in order, floor at most vacant level at most level (R26), the gas thresholds
rising (R96) and the degrade limit above the stale limit (R77): in working memory, in the stored copy and in a snapshot
being written. -/
def Obligations.StepKeepsSettingsOrdered : Prop :=
  ∀ s t : State, s.SettingsOrdered → step s = .next t → t.SettingsOrdered

/-- INVARIANT. No step takes an enabled lamp group's output below the floor of the phase in force, nor its desired level,
its grant or the floor it has requested (R144). -/
def Obligations.StepKeepsLampFloors : Prop :=
  ∀ s t : State, s.LampFloors → step s = .next t → t.LampFloors

/-- INVARIANT. No step takes a lamp group's output above its granted level, lights a DISABLED group, or parts a dimmer
channel from its group's output (R144, R156). -/
def Obligations.StepKeepsLampsCapped : Prop :=
  ∀ s t : State, s.LampsCapped → step s = .next t → t.LampsCapped

/-- Whole machine: a step that clears an attention flag runs FLAGS_CLEAR from the supervisor link naming that flag, or a
reset (R166). -/
def Obligations.FlagsClearOnlyByCallOrReset : Prop :=
  ∀ (s t : State) (f : Flag), step s = .next t → s.links.isSet f = true → t.links.isSet f = false →
    ∃ c rest, s.pending = c :: rest ∧
      ((∃ boards, c = .powerOn boards) ∨ (∃ boards, c = .resetTakesEffect boards)
        ∨ ∃ o a, c = .flagsClear o (some a) ∧ o.link = .supervisor ∧ a.flags.getLsbD (flagIndex f) = true)

/-! ### What the Link Interface does with every call -/

/-- Whole machine: on the panel link every known call outside the panel's set of eleven is answered LEVEL and does nothing
else; on the supervisor link every known call may be made (R162 step 2, R165). STORE_SAVE and STORE_STATUS bring the KEY
level with them, which the Settings Store sees whatever becomes of the call (`asSeen`, in full in `KeySeen`;
assumption 9). -/
def Claims.PanelCallsOutsideItsSetAnswerLevel : Prop :=
  (∀ (c : Instr) (s : State) (k : CallKind) (o : Origin) (b : Bool), callOf c = some (k, o, b) → o.link = .panel →
    k ∉ [.phaseExtend, .groupOverride, .groupRelease, .phaseWrite, .sceneWrite, .phaseRead, .zoneRead, .groupRead,
      .doorRead, .shiftRead, .ident] →
    s.power = .running → s.links.restart = none →
    exec c s = .next ((s.asSeen c).answered k o ⟨.level, .bare⟩))
  ∧ ∀ k, linkMay k .supervisor = true

/-- Whole machine: a call its link may make whose body does not hold the fields of its kind is answered RANGE and does
nothing else (R162 step 3). -/
def Claims.MalformedBodiesAnswerRange : Prop :=
  ∀ (c : Instr) (s : State) (k : CallKind) (o : Origin), callOf c = some (k, o, false) → s.Admits k o →
    exec c s = .next ((s.asSeen c).answered k o ⟨.range, .bare⟩)

/-- Whole machine: once a RESTART is accepted, every call on either link is discarded without an answer (R170). The KEY level
that comes with STORE_SAVE and STORE_STATUS is seen all the same (`asSeen`, in full in `KeySeen`), the model's choice
(assumption 9). -/
def Claims.CallsAfterRestartAreDiscarded : Prop :=
  (∀ (c : Instr) (s : State) (k : CallKind) (o : Origin) (b : Bool), callOf c = some (k, o, b) →
    s.power = .running → s.links.restart ≠ none → exec c s = .next ((s.asSeen c).unanswered o))
  ∧ ∀ (s : State) (o : Origin) (kind : Byte), s.power = .running → s.links.restart ≠ none →
    exec (.unknownCall o kind) s = .next (s.unanswered o)

/-- Whole machine, the model's choice (assumption 10): while the part is held in reset or has no supply, nothing but a
power-on, a loss of power and the RESET pin does anything. -/
def Claims.NothingHappensWithoutPower : Prop :=
  ∀ (c : Instr) (s : State), s.power ≠ .running → (∀ boards, c ≠ .powerOn boards) → c ≠ .lossOfPower →
    c ≠ .resetPinLow → exec c s = .next s

/-- What is not taken at all: calls after an accepted RESTART (R170), and everything while the part has no supply or is held
in reset (assumption 10). That a discarded STORE_SAVE or STORE_STATUS still shows the KEY level it brought (`asSeen`) is the
model's choice (assumption 9). -/
def Obligations.NothingTaken : Prop :=
  Claims.CallsAfterRestartAreDiscarded ∧ Claims.NothingHappensWithoutPower

/-- Whole machine: no command of one link touches the other link's receiver or its hold; of a link's own traffic the other
link's queue is untouched too (R158). -/
def Obligations.LinksDoNotTouchEachOther : Prop :=
  (∀ (c : Instr) (s t : State) (k : CallKind) (o : Origin) (b : Bool) (l : Link), callOf c = some (k, o, b) →
    l ≠ o.link → exec c s = .next t →
    (t.links.link l).receiver = (s.links.link l).receiver ∧ (t.links.link l).held = (s.links.link l).held)
  ∧ ∀ (c : Instr) (s t : State) (l m : Link), l ≠ m →
    (c = .linkHold m ∨ c = .linkRelease m ∨ c = .frameBegins m ∨ (∃ x, c = .frameDiscarded m x) ∨ c = .frameSent m) →
    exec c s = .next t → t.links.link l = s.links.link l

/-- UNKNOWN_CALL (R162 step 1, R163): a call kind that names no call is answered UNKNOWN on either link. -/
def Claims.UnknownCallsAnswerUnknown : Prop :=
  ∀ (s : State) (o : Origin) (kind : Byte), s.power = .running → s.links.restart = none →
    1 ≤ kind.toNat → kind.toNat ≤ 0x6F → (∀ k, kindCode k ≠ kind) →
    exec (.unknownCall o kind) s = .next (s.answeredCode kind o ⟨.unknown, .bare⟩)

/-- The order in which the Link Interface judges a call (R162, R165): an unknown kind UNKNOWN, a call its link may not make
LEVEL, a body without the fields of its kind RANGE; nothing else happens. -/
def Obligations.CallsJudged : Prop :=
  Claims.PanelCallsOutsideItsSetAnswerLevel ∧ Claims.MalformedBodiesAnswerRange ∧ Claims.UnknownCallsAnswerUnknown

/-- LINK_HOLD, LINK_RELEASE and FRAME_BEGINS (R160, R161): a hold, release or start byte counts while the receiver hunts,
and changes nothing inside a frame. A held link sends nothing more than the frame it is sending; a released link resumes
with its oldest frame. -/
def Claims.HoldReleaseAndStartBytes : Prop :=
  ∀ (s : State) (l : Link), s.power = .running →
    ((s.links.link l).receiver = .hunting →
      exec (.linkHold l) s = .next (s.setLink l { s.links.link l with held := true })
      ∧ exec (.linkRelease l) s
          = .next (s.setLink l { s.links.link l with held := false, sending := !(s.links.link l).queue.isEmpty })
      ∧ exec (.frameBegins l) s = .next (s.setLink l { s.links.link l with receiver := .receiving }))
    ∧ ((s.links.link l).receiver = .receiving →
      exec (.linkHold l) s = .next s ∧ exec (.linkRelease l) s = .next s ∧ exec (.frameBegins l) s = .next s)

/-- FRAME_DISCARDED and FRAME_SENT (R160, R161, R163): a discard returns the receiver to hunting silently, a late byte being
taken as hunting takes it; a frame sent leaves the queue, and the next begins unless the link is held. -/
def Claims.FramesDiscardedAndSent : Prop :=
  (∀ (s : State) (l : Link) (c : DiscardCause), s.power = .running → (s.links.link l).receiver = .receiving →
    exec (.frameDiscarded l c) s = .next (s.setLink l
      (match c with
        | .lateByte b =>
          if b = 0x7E then s.links.link l
          else if b = 0x13 then { s.links.link l with receiver := .hunting, held := true }
          else if b = 0x11 then
            { s.links.link l with receiver := .hunting, held := false, sending := !(s.links.link l).queue.isEmpty }
          else { s.links.link l with receiver := .hunting }
        | _ => { s.links.link l with receiver := .hunting })))
  ∧ (∀ (s : State) (l : Link) (f : Frame) (q : List Frame), s.power = .running →
    (s.links.link l).sending = true → (s.links.link l).queue = f :: q →
    exec (.frameSent l) s
      = .next (s.setLink l { s.links.link l with queue := q, sending := !(s.links.link l).held && !q.isEmpty }))
  ∧ ∀ (s : State) (l : Link), s.power = .running → (s.links.link l).sending = false →
    exec (.frameSent l) s = .next s

/-- LINK_HOLD, LINK_RELEASE, FRAME_BEGINS, FRAME_DISCARDED and FRAME_SENT (R160, R161, R163). -/
def Obligations.LinkTraffic : Prop :=
  Claims.HoldReleaseAndStartBytes ∧ Claims.FramesDiscardedAndSent

/-! ### Shed Clock -/

/-- CLOCK_READ and CLOCK_SET (R3, R4). CLOCK_SET outside the week is answered RANGE; within the week it loads the whole
week-second, sets the tick to 0 and the state to RUNNING, and where the clock was RUNNING and the minute is unchanged
nothing else happens: CLOCK_UNSET is not cleared, and no minute or second boundary is delivered. -/
def Obligations.ClockCalls : Prop :=
  (∀ (s : State) (o : Origin), s.Admits .clockRead o →
    exec (.clockRead o (some ())) s = .next (s.answered .clockRead o
      ⟨.ok, .clock s.clock.weekSecond s.clock.tick (s.clock.weekSecond / 86400) (s.clock.weekSecond % 86400 / 60)
        s.clock.running⟩))
  ∧ (∀ (s : State) (o : Origin) (a : ClockSetArgs), s.Admits .clockSet o → 604800 ≤ a.weekSecond.toNat →
    exec (.clockSet o (some a)) s = .next (s.answered .clockSet o ⟨.range, .bare⟩))
  ∧ ∀ (s : State) (o : Origin) (a : ClockSetArgs), s.Admits .clockSet o → a.weekSecond.toNat < 604800 →
    s.clock.running = true → a.weekSecond.toNat / 60 = s.clock.weekSecond / 60 →
    exec (.clockSet o (some a)) s
      = .next (State.answered { s with clock := ⟨a.weekSecond.toNat, 0, true⟩ } .clockSet o ⟨.ok, .bare⟩)

/-- CLOCK_SET's set event (R3, R13), from the state `u` with the clock loaded and the call answered, for a clock that was
UNSET or a minute that changed: the rings move once when the minute changed; with an override active the phase record
stands; a matching entry is taken as an ordinary match, once; otherwise the lookup, or the lead, settles the outcome and a
transition is made only where it differs. The last part is stated where the lead is not already due at the delivered
boundary, whose place before the set event is the model's choice (assumption 36). -/
def Obligations.SetEventFollowsClockSet : Prop :=
  ∀ (s u v : State) (o : Origin) (a : ClockSetArgs), s.Admits .clockSet o → a.weekSecond.toNat < 604800 →
    u = State.answered { s with clock := ⟨a.weekSecond.toNat, 0, true⟩ } .clockSet o ⟨.ok, .bare⟩ →
    (s.clock.running = false ∨ a.weekSecond.toNat / 60 ≠ s.clock.weekSecond / 60) →
    v = (if a.weekSecond.toNat / 60 = s.clock.weekSecond / 60 then u else u.ringMinute) →
    (s.calendar.record.overridden = true → exec (.clockSet o (some a)) s = .next v)
    ∧ (∀ e, s.calendar.record.overridden = false →
      winner s.calendar.entries (a.weekSecond.toNat / 60) = some e →
      exec (.clockSet o (some a)) s = .next (v.transition e.phase .calendar none e.shiftStart))
    ∧ (s.calendar.record.overridden = false → winner s.calendar.entries (a.weekSecond.toNat / 60) = none →
      ¬ (s.phase = .setback ∧ s.calendar.record.source = .calendar
        ∧ leadHolds s.calendar.entries (a.weekSecond.toNat / 60) s.climate.deficit s.calendar.leadRate = true) →
      ∀ outcome : Phase × Source,
        outcome =
          (if lookup s.calendar.entries s.calendar.noClock (a.weekSecond.toNat / 60) = .setback
              ∧ leadHolds s.calendar.entries (a.weekSecond.toNat / 60) s.climate.deficit s.calendar.leadRate = true
            then (.preheat, .lead)
            else (lookup s.calendar.entries s.calendar.noClock (a.weekSecond.toNat / 60), .calendar)) →
        exec (.clockSet o (some a)) s
          = .next (if (s.phase, s.calendar.record.source) = outcome then v
              else v.transition outcome.1 outcome.2 none false))

/-- TICK (R1, R147, R148): the clock advances by one tick, returning from 15 to 0 with the week-second advancing, and from
604,799 to 0; the scan counts each present board's return as good or bad; the waiting commands stand. A tick that finds
nothing due and brings no second boundary does nothing but its scan. What is still due is taken first (assumptions 1 to 3). -/
def Claims.TickAdvances : Prop :=
  ∀ (s : State) (capture : Capture) (order : List TickEvent), s.power = .running →
    (∃ t, exec (.tick capture order) s = .next t
      ∧ t.clock =
          (if s.clock.tick + 1 < 16 then { s.clock with tick := s.clock.tick + 1 }
          else { s.clock with tick := 0, weekSecond := if s.clock.weekSecond + 1 < 604800 then s.clock.weekSecond + 1 else 0 })
      ∧ t.pending = s.pending ∧ t.power = .running
      ∧ (∀ l, (t.lines.lines.get l).driven = none ↔
          (s.lines.boards.get (boardOf l)).present = false ∨ (s.lines.lines.get l).config.mode = .input)
      ∧ ∀ b, t.lines.boards.get b =
          (if (s.lines.boards.get b).present then
            match capture.get b with
            | some q => { s.lines.boards.get b with captured := some q, consecutive := 0 }
            | none => { s.lines.boards.get b with
                bad := min 65535 ((s.lines.boards.get b).bad + 1)
                consecutive := min 65535 ((s.lines.boards.get b).consecutive + 1) }
          else s.lines.boards.get b))
    ∧ (s.owed = [] → (∀ d, s.doorDue d = none ∧ s.trailerDue d = none) → s.clock.tick + 1 < 16 → order = [] →
      exec (.tick capture order) s
        = .next (State.scan { s with clock := { s.clock with tick := s.clock.tick + 1 } } capture))

/-- A second boundary delivered to every record, and a minute boundary to the calendar, the clock and the rings when there is
one, in the order the model takes where TICK names none (assumption 2). -/
def Claims.secondDelivered (s : State) (minute : Bool) : State :=
  let s := s.deliverSecond .override
  let s := if minute then s.calendarMinute.clockMinute else s
  let s := s.forEach 32 fun d s => s.deliverSecond (.door d)
  let s := s.forEach 16 fun c s => s.deliverSecond (.curtain c)
  let s := s.forEach 32 fun d s => s.deliverSecond (.forecast d)
  let s := if minute then s.ringMinute else s
  let s := s.forEach 16 fun n s => s.deliverSecond (.node n)
  let s := s.deliverSecond .cap
  let s := s.forEach 8 fun z s => s.deliverSecond (.stages z)
  ((s.deliverSecond .lighting).deliverSecond .cycle).accountSecond

/-- A TICK that brings a second boundary, sixteen ticks after the last (R1): after the scan every record takes the boundary,
and the calendar, the clock and the rings a minute boundary where the second is the first of a minute. What a record makes of
its second boundary is `RecordsTakeSeconds`, what a minute boundary does `MinuteBoundaries`, what the Accounting Unit does
`AccountsSecond`. The order of the events is the one the model takes where TICK names none (assumption 2). -/
def Claims.TickBringsBoundaries : Prop :=
  ∀ (s : State) (capture : Capture) (w : Nat), s.power = .running → s.owed = [] →
    (∀ d, s.doorDue d = none ∧ s.trailerDue d = none) → 16 ≤ s.clock.tick + 1 →
    w = (if s.clock.weekSecond + 1 < 604800 then s.clock.weekSecond + 1 else 0) →
    exec (.tick capture []) s = .next
      (Claims.secondDelivered (State.scan { s with clock := { s.clock with tick := 0, weekSecond := w } } capture)
        (decide (w % 60 = 0)))

/-- A door's second boundary (R43, R47, R48, R49, R180): an UNUSED door takes none; a CLOSED door's interval grows; an OPEN or
HELD door's interval, open-seconds and longest open grow, and its zone's ring and summary take one open-second; the boundary
at which an OPEN door would become HELD is owed (assumption 1). -/
def Claims.DoorsTakeSeconds : Prop :=
  ∀ (s : State) (d : Fin 32) (x y : Channel) (n : Nat), x = s.channel d → n = min 65535 (x.interval + 1) →
    y = { x with interval := n, openSeconds := min 4294967295 (x.openSeconds + 1), longest := max x.longest n } →
    (x.state = .unused → s.deliverSecond (.door d) = s)
    ∧ (x.state = .closed → s.deliverSecond (.door d) = s.setChannel d { x with interval := n })
    ∧ (x.state = .opened → (s.paramsOf s.phase).longOpen ≠ 0 → 60 * (s.paramsOf s.phase).longOpen ≤ n →
        s.deliverSecond (.door d) = { s with owed := s.owed ++ [.door d] })
    ∧ (x.state = .held ∨ x.state = .opened ∧ ((s.paramsOf s.phase).longOpen = 0 ∨ n < 60 * (s.paramsOf s.phase).longOpen) →
        (x.config.zone = none → s.deliverSecond (.door d) = s.setChannel d y)
        ∧ ∀ z, x.config.zone = some z → s.deliverSecond (.door d) =
            { s.setChannel d y with
              doors := { (s.setChannel d y).doors with rings := s.doors.rings.modify z fun r =>
                { r with current := min 65535 (r.current + 1) } }
              accounts := { s.accounts with current := { s.accounts.current with
                zones := s.accounts.current.zones.modify z fun a => { a with
                  openings := min 4294967295 a.openings, openSeconds := min 4294967295 (a.openSeconds + 1) } } } })

/-- What the other records make of a second boundary: a curtain's run-on (R53), a forecast (R57), a node's age (R74), the
override and the supervisor cap (R15, R108), a zone's stage timers (R112, R126), the Lighting Unit (R138) and the cycle timer
(R88) count it, and a boundary that would bring an event the opcode table names is owed (assumption 1). That with the setting 0
each boundary brings a cycle, another cause's cycle or not, is the model's choice (assumption 46). -/
def Claims.RecordsTakeSeconds : Prop :=
  (∀ (s : State) (c : Fin 16) (x : Curtain), x = s.doors.curtains.get c →
    (x.state ≠ .runOn ∨ x.remaining = none → s.deliverSecond (.curtain c) = s)
    ∧ ∀ n, x.state = .runOn → x.remaining = some n →
      (n ≤ 1 → s.deliverSecond (.curtain c) = { s with owed := s.owed ++ [.curtain c] })
      ∧ (1 < n → s.deliverSecond (.curtain c) = s.setCurtain c { x with remaining := some (n - 1) }))
  ∧ (∀ (s : State) (d : Fin 32), s.Bounded →
    ((∀ f ∈ s.doors.forecasts, f.door ≠ d) → s.deliverSecond (.forecast d) = s)
    ∧ ∀ f ∈ s.doors.forecasts, f.door = d →
      (f.seconds ≤ 1 → s.deliverSecond (.forecast d) = { s with owed := s.owed ++ [.forecast d] })
      ∧ (1 < f.seconds → s.deliverSecond (.forecast d) = { s with doors := { s.doors with
          forecasts := s.doors.forecasts.map fun e => if e.door = d then { e with seconds := e.seconds - 1 } else e } }))
  ∧ (∀ (s : State) (n : Fin 16) (x : Node) (age : Nat) (ends : Prop), x = s.sensors.nodes.get n →
    age = min 65535 (x.age + 1) →
    (ends ↔ (x.status = .fresh ∨ x.status = .suspect) ∧ (s.sensors.stale ≤ age ∨ s.sensors.degrade ≤ age)
      ∨ x.status = .held ∧ s.sensors.degrade ≤ age) →
    (x.config.configured = false → s.deliverSecond (.node n) = s)
    ∧ (x.config.configured = true →
      (ends → s.deliverSecond (.node n) = { s with owed := s.owed ++ [.node n] })
      ∧ (¬ ends → s.deliverSecond (.node n) = s.setNode n { x with age := age })))
  ∧ (∀ (s : State) (o : Option Override), o = s.calendar.record.override →
    ((o.bind Override.remaining) = none → s.deliverSecond .override = s)
    ∧ ∀ n, o.bind Override.remaining = some n →
      (n ≤ 1 → s.deliverSecond .override = { s with owed := s.owed ++ [.override] })
      ∧ (1 < n → s.deliverSecond .override = { s with calendar := { s.calendar with record := { s.calendar.record with
          override := some ⟨some (n - 1)⟩ } } }))
  ∧ (∀ (s : State) (o : Option SupervisorCap), o = s.budget.supCap →
    ((o.bind SupervisorCap.remaining) = none → s.deliverSecond .cap = s)
    ∧ ∀ units n, o = some ⟨units, some n⟩ →
      (n ≤ 1 → s.deliverSecond .cap = { s with owed := s.owed ++ [.cap] })
      ∧ (1 < n → s.deliverSecond .cap = { s with budget := { s.budget with supCap := some ⟨units, some (n - 1)⟩ } }))
  ∧ (∀ (s : State) (z : Fin 8) (g : ZoneGrant) (ends : Prop), g = s.budget.zones.get z → g.heat ≤ 4 →
    (ends ↔ (s.budget.demandOf z).heat < g.heat ∧ s.budget.minOn ≤ min 65535 (g.time g.heat + 1)) →
    (ends → s.deliverSecond (.stages z) = { s with owed := s.owed ++ [.stages z] })
    ∧ (¬ ends → s.deliverSecond (.stages z)
        = s.setGrant z { g with times := g.times.map fun t => min 65535 (t + 1) }))
  ∧ (∀ (s : State) (ends : Prop),
    (ends ↔ ∃ g, (s.lighting.groups.get g).state = .lit ∧ (s.lighting.groups.get g).hold = some 1
      ∨ ∃ v, (s.lighting.groups.get g).override = some v ∧ v.seconds ≤ 1) →
    (ends → s.deliverSecond .lighting = { s with owed := s.owed ++ [.lighting] })
    ∧ (¬ ends → s.deliverSecond .lighting = s.lightSecond))
  ∧ ∀ s : State,
    (s.climate.setting ≤ s.climate.timer → s.deliverSecond .cycle = { s with owed := s.owed ++ [.cycle] })
    ∧ (s.climate.timer < s.climate.setting →
      s.deliverSecond .cycle = { s with climate := { s.climate with timer := s.climate.timer + 1 } })

/-- A minute boundary, and the figures of R50: while the clock is UNSET it repeats CLOCK_UNSET (R2); the calendar takes a match
when no override is active, and evaluates the preheat lead where nothing matches (R14, R21); every ring drops its oldest
completed slot, takes its current slot as the newest and begins a new one (R49). The zone open time is the sum of the five
completed slots, with the manual's worked ring; the trailer count and the forecast mark read the zone's channels and entries
(R50). -/
def Claims.MinuteBoundaries : Prop :=
  (∀ s : State, (s.clock.running = true → s.clockMinute = s)
    ∧ (s.clock.running = false → s.clockMinute = s.raise .clockUnset))
  ∧ (∀ s : State,
    (s.clock.running = false ∨ s.calendar.record.source = .forced ∨ s.calendar.record.source = .extended →
      s.calendarMinute = s)
    ∧ (s.clock.running = true → s.calendar.record.source ≠ .forced → s.calendar.record.source ≠ .extended →
      (∀ e, winner s.calendar.entries (s.clock.weekSecond / 60) = some e →
        s.calendarMinute = s.transition e.phase .calendar none e.shiftStart)
      ∧ (winner s.calendar.entries (s.clock.weekSecond / 60) = none → s.calendarMinute =
          (if s.phase = .setback ∧ s.calendar.record.source = .calendar
              ∧ leadHolds s.calendar.entries (s.clock.weekSecond / 60) s.climate.deficit s.calendar.leadRate = true then
            s.transition .preheat .lead none false
          else s))))
  ∧ (∀ s : State, s.ringMinute = { s with doors := { s.doors with rings := s.ringMinute.doors.rings } }
    ∧ ∀ z, (s.ringMinute.doors.rings.get z).current = 0
      ∧ (s.ringMinute.doors.rings.get z).completed.rows
          = (s.doors.rings.get z).completed.rows.drop 1 ++ [(s.doors.rings.get z).current])
  ∧ (∀ (s : State) (z : Fin 8), s.openTime z = (s.doors.rings.get z).completed.rows.sum
    ∧ s.trailerCount z = ((indices 32).filter fun d => (s.channel d).config.configured
        ∧ (s.channel d).config.zone = some z ∧ (s.channel d).trailer).length
    ∧ (s.forecastMark z = true ↔ ∃ f ∈ s.doors.forecasts, (s.channel f.door).config.zone = some z))
  ∧ ∀ (s : State) (z : Fin 8), (s.doors.rings.get z).current = 118 →
    (s.doors.rings.get z).completed.rows = [140, 95, 180, 60, 125] →
    s.openTime z = 600 ∧ s.ringMinute.openTime z = 578

/-- The debounce of a scan (R41, R42, R148, R149, R152): an INPUT line of a present board delivers the level last captured for
it, after its invert, and inactive while the board has given no good return since the reset. A delivered level that differs from the settled level starts a pending change of the debounce count; the
pending level again decreases its ticks; the settled level again drops it. Before the first settlement the change starts with
whatever level is delivered and starts again when the level differs. An unconfigured channel ignores its deliveries. A change
whose ticks have reached 0 waits as such for its row (assumption 1). -/
def Claims.ScanDebounces : Prop :=
  (∀ (s : State) (d : Fin 32) (level : Bool) (x : Channel), x = s.channel d →
    (x.config.configured = false → s.deliverDoor d level = s ∧ s.deliverTrailer d level = s)
    ∧ (x.config.configured = true →
      (s.deliverDoor d level = s.setChannel d { x with doorPending :=
        (if x.state = .unused then
          match x.doorPending with
          | some p => if p.level = level then some ⟨level, p.ticks - 1⟩ else some ⟨level, x.config.doorDebounce⟩
          | none => some ⟨level, x.config.doorDebounce⟩
        else if level = decide (x.state = .opened ∨ x.state = .held) then
          match x.doorPending with
          | some p => if p.level = level then some ⟨level, p.ticks - 1⟩ else none
          | none => none
        else
          match x.doorPending with
          | some p => if p.level = level then some ⟨level, p.ticks - 1⟩ else none
          | none => some ⟨level, x.config.doorDebounce⟩) })
      ∧ (s.deliverTrailer d level = s.setChannel d { x with trailerPending :=
        (if x.trailerSettled = false then
          match x.trailerPending with
          | some p => if p.level = level then some ⟨level, p.ticks - 1⟩ else some ⟨level, x.config.trailerDebounce⟩
          | none => some ⟨level, x.config.trailerDebounce⟩
        else if level = x.trailer then
          match x.trailerPending with
          | some p => if p.level = level then some ⟨level, p.ticks - 1⟩ else none
          | none => none
        else
          match x.trailerPending with
          | some p => if p.level = level then some ⟨level, p.ticks - 1⟩ else none
          | none => some ⟨level, x.config.trailerDebounce⟩) })))
  ∧ ∀ (s : State) (l : Fin 192) (x : Line) (b : Board), x = s.lines.lines.get l → b = s.lines.boards.get (boardOf l) →
    (x.config.mode = .output ∨ b.present = false → s.deliverLine l = s)
    ∧ (x.config.mode = .input → b.present = true → ∀ active,
      active = (match b.captured with | some q => q.getLsbD (l.val % 32) != x.config.invert | none => false) →
      s.deliverLine l = (match x.config.binding with
        | .doorContact d => s.deliverDoor d active
        | .trailer d => s.deliverTrailer d active
        | .occupancy g => s.deliverOccupancy g active
        | _ => s))

/-- A scan (R147, R148, R149, R151, R152): each present board's return is taken as good or counted as bad; an OUTPUT line of a
present board is driven to its latch after its invert, and any other line is driven to nothing; then every line delivers, in
ascending line order (`ScanDebounces` says what). What a delivery brings moves no driven level before the next scan. -/
def Claims.ScanDrivesAndDelivers : Prop :=
  ∀ (s u : State) (capture : Capture),
    u = { s with lines := { s.lines with
      boards := s.lines.boards.mapIdx fun b x =>
        if x.present then
          match capture.get b with
          | some q => { x with captured := some q, consecutive := 0 }
          | none => { x with bad := min 65535 (x.bad + 1), consecutive := min 65535 (x.consecutive + 1) }
        else x
      lines := s.lines.lines.mapIdx fun l x => { x with
        driven := if (s.lines.boards.get (boardOf l)).present = true ∧ x.config.mode = .output
          then some (x.latch != x.config.invert) else none } } } →
    s.scan capture = (indices 192).foldl (fun v l => v.deliverLine l) u
    ∧ (s.scan capture).lines.boards = u.lines.boards
    ∧ ∀ l, ((s.scan capture).lines.lines.get l).driven = (u.lines.lines.get l).driven

/-- TICK: the clock and the scan, what a second boundary and a minute boundary deliver, what a scan drives and delivers, and how
its deliveries are debounced. That a
boundary which brings a row of the opcode table is owed until the row comes is the model's choice (assumption 1), as is the
order of a tick's events (assumption 2). -/
def Obligations.TickAdvancesClockAndScans : Prop :=
  Claims.TickAdvances ∧ Claims.TickBringsBoundaries ∧ Claims.DoorsTakeSeconds ∧ Claims.RecordsTakeSeconds
    ∧ Claims.MinuteBoundaries ∧ Claims.ScanDebounces ∧ Claims.ScanDrivesAndDelivers

/-! ### Shift Calendar -/

/-- The lookup (R11): the phase of the entry that wins the nearest matched minute at or before the given one, going back
through the week; the no-clock phase when no minute of the week is matched. -/
def Claims.LookupFindsNearestMatch : Prop :=
  ∀ (entries : Table 24 CalEntry) (noClock : Phase) (minute : Nat), minute < 10080 →
    (∀ k e, k < 10080 → (∀ j, j < k → winner entries ((minute + 10080 - j) % 10080) = none) →
      winner entries ((minute + 10080 - k) % 10080) = some e → lookup entries noClock minute = e.phase)
    ∧ ((∀ m, m < 10080 → winner entries m = none) → lookup entries noClock minute = noClock)

/-- The winning entry of a minute (R5): the matching entry of lowest index, an entry matching when it is enabled, the
minute's day is in its days and its start is the minute's minute of day. -/
def Claims.LowestMatchingEntryWins : Prop :=
  ∀ (entries : Table 24 CalEntry) (minute : Nat), minute < 10080 →
    (∀ i : Fin 24, (entries.get i).enabled = true → (entries.get i).days.getLsbD (minute / 1440) = true →
      (entries.get i).start = minute % 1440 →
      (∀ j : Fin 24, j < i → ¬ ((entries.get j).enabled = true ∧ (entries.get j).days.getLsbD (minute / 1440) = true
        ∧ (entries.get j).start = minute % 1440)) →
      winner entries minute = some (entries.get i))
    ∧ ((∀ j : Fin 24, ¬ ((entries.get j).enabled = true ∧ (entries.get j).days.getLsbD (minute / 1440) = true
        ∧ (entries.get j).start = minute % 1440)) → winner entries minute = none)

/-- The preheat lead (R21, R22): with the first WORK entry with an allowance A that wins a minute d ahead, 1 to 120, the lead
holds exactly when d is at most the smaller of A and the ceiling of deficit times lead rate over 64; with no such minute,
with a deficit of 0 or with a lead rate of 0 it does not hold. -/
def Claims.LeadHoldsByRequiredLead : Prop :=
  (∀ (entries : Table 24 CalEntry) (minute deficit rate d : Nat) (e : CalEntry), 1 ≤ d → d ≤ 120 →
    winner entries ((minute + d) % 10080) = some e → e.phase = .work → e.allowance ≠ 0 →
    (∀ j x, 1 ≤ j → j < d → winner entries ((minute + j) % 10080) = some x → x.phase ≠ .work ∨ x.allowance = 0) →
    (leadHolds entries minute deficit rate = true ↔ d ≤ e.allowance ∧ 64 * (d - 1) < deficit * rate))
  ∧ (∀ (entries : Table 24 CalEntry) (minute deficit rate : Nat),
    (∀ j x, 1 ≤ j → j ≤ 120 → winner entries ((minute + j) % 10080) = some x → x.phase ≠ .work ∨ x.allowance = 0) →
    leadHolds entries minute deficit rate = false)
  ∧ ∀ (entries : Table 24 CalEntry) (minute deficit rate : Nat), deficit = 0 ∨ rate = 0 →
    leadHolds entries minute deficit rate = false

/-- The three searches of the Shift Calendar (R5, R11, R21, R22). -/
def Obligations.CalendarSearches : Prop :=
  Claims.LookupFindsNearestMatch ∧ Claims.LowestMatchingEntryWins ∧ Claims.LeadHoldsByRequiredLead

/-- The notices of a transition (R9, R10, R168, R181). Steps 2 to 4 change the calendar and the links alone, set PHASE_CHANGED,
and then offer a PHASE notice to both queues: the phase, its source, the entered time, the override end where the override has
one, and the phase the lookup gives at that moment, the no-clock phase while the clock is UNSET. It joins the end of a queue
that holds fewer than 8 frames, unless a RESTART is pending (assumption 39). Step 5 offers the panel nothing; with the
shift-start mark its last frame offered to the supervisor is SHIFT_SUMMARY, of the summary that ends. -/
def Claims.TransitionNotices : Prop :=
  (∀ (s t : State) (p : Phase) (src : Source) (v : Option Override) (x : PhaseReport), t = s.enter p src v →
    x = { phase := p, source := src, entered := s.clock.weekSecond
          overrideEnd := match v with
            | some ⟨some n⟩ => some ((s.clock.weekSecond + n) % 604800)
            | _ => none
          scheduled := if s.clock.running then
              lookup t.calendar.entries t.calendar.noClock (s.clock.weekSecond / 60) else t.calendar.noClock } →
    t = { s with calendar := t.calendar, links := t.links } ∧ t.links.isSet .phaseChanged = true
    ∧ (∀ l q, q = ((s.links.raise .phaseChanged).link l).queue →
        (t.links.link l).queue = (if s.links.restart = none ∧ q.length < 8 then q ++ [⟨0xF1, 0, .notice (.phase x)⟩] else q))
    ∧ ∀ mark, s.transition p src v mark = t.handOn s.phase mark)
  ∧ ∀ (s t : State) (before : Phase) (mark : Bool) (c : Summary), t = s.handOn before mark → c = s.accounts.current →
    t.links.panel = s.links.panel
    ∧ ∃ q, s.links.supervisor.queue <+: q ∧ t.links.supervisor.queue =
        (if mark = true ∧ s.links.restart = none ∧ q.length < 8
          then q ++ [⟨0xF3, 0, .notice (.shiftSummary ⟨c, c.phaseSeconds.sum, c.energy / 3600⟩)⟩] else q)

/-- The phase cap taken (R106, R109): the cap in force is the phase cap taken, or the smaller of it and a supervisor cap; a pass
follows a newly taken phase cap exactly where the cap in force has changed (`PassesAreHanded`). Step 5 of a transition takes it
after the Zone Climate Engine's cycle, the Lighting Unit and the Door Unit (assumption 6), whatever pass the cycle's demand set
has brought, and before the accounts roll over. -/
def Claims.PhaseCapsTaken : Prop :=
  (∀ a : Allocator, a.capInForce = match a.supCap with | none => a.phaseCap | some c => min a.phaseCap c.units)
  ∧ (∀ s t : State, t = { s with budget := { s.budget with phaseCap := (s.paramsOf s.phase).cap } } →
    s.takePhaseCap = (if t.budget.capInForce = s.budget.capInForce then t else t.passAndHand))
  ∧ ∀ (s u v : State) (before : Phase) (mark : Bool), u = (s.cycle.retarget).doorTransition before mark →
    v = { u with budget := { u.budget with phaseCap := (s.paramsOf s.phase).cap } } →
    s.handOn before mark
      = (if mark then State.rollover (if v.budget.capInForce = s.budget.capInForce then v else v.passAndHand)
        else (if v.budget.capInForce = s.budget.capInForce then v else v.passAndHand))

/-- A transition as the Door Unit takes it (R47, R48, R60). Every OPEN door whose count stands at or beyond the new long-open limit
becomes HELD at once, its record offered whatever the capture selection (`RecordsAreQueued`) and DOOR_HELD delivered; with the
shift-start mark every channel's tally is set to 0; and where the phase in force has moved from WORK or CHANGEOVER to a phase of
the quiet class, with the quiet threshold below the busy one, the batch check is made (`BatchCheckEmptiesTheQueue`). That the
doors are compared in ascending door number, and that the three follow in this order, is the model's choice (assumptions 42,
25). What step 5 does before it leaves the door event queue as it was, and what it does after it leaves it as the Door Unit
does. -/
def Claims.DoorUnitTakesTransitions : Prop :=
  (∀ (s v w : State) (before : Phase) (mark : Bool) (limit : Nat), limit = (s.paramsOf s.phase).longOpen →
    v = (indices 32).foldl (fun u d =>
      if (u.channel d).state = .opened ∧ limit ≠ 0 ∧ 60 * limit ≤ (u.channel d).interval then
        ((u.setChannel d { u.channel d with state := .held }).offerRecord
          ⟨d, .held, s.clock.weekSecond, s.phase, none⟩).raise .doorHeld
      else u) s →
    w = (if mark = true then { v with doors := { v.doors with channels := v.doors.channels.map fun x =>
      { x with openings := 0, openSeconds := 0, longest := 0 } } } else v) →
    s.doorTransition before mark =
      (if (before = .work ∨ before = .changeover) ∧ s.phase ≠ .work ∧ s.phase ≠ .changeover
          ∧ s.doors.quiet < s.doors.busy then w.batchCheck else w))
  ∧ ∀ (s u : State) (before : Phase) (mark : Bool), u = s.cycle.retarget →
    u.doors.queue = s.doors.queue ∧ u.doors.channels = s.doors.channels ∧ u.phase = s.phase
    ∧ (s.handOn before mark).doors.queue = (u.doorTransition before mark).doors.queue
    ∧ (s.handOn before mark).doors.channels = (u.doorTransition before mark).doors.channels

/-- A transition's five steps (R9, R34, R47, R48, R60, R106, R145, R181), made by the calendar or by the end of an override; and
made by a call, whose answer is offered between its steps 4 and 5 (assumption 6); and the notices it offers. -/
def Obligations.TransitionLeaves : Prop :=
  Claims.TransitionNotices ∧ Claims.PhaseCapsTaken ∧ Claims.DoorUnitTakesTransitions
  ∧ (∀ (s : State) (p : Phase) (src : Source) (v : Option Override) (mark : Bool),
    s.Transitioned (s.transition p src v mark) p src v mark)
  ∧ ∀ (s : State) (k : CallKind) (o : Origin) (r : Reply) (p : Phase) (src : Source) (v : Option Override),
    s.Transitioned (((s.enter p src v).answer k o r).handOn s.phase false) p src v false

/-- The staging list applied by a transition (R34): for the scene of each staged key and the entry of each staged key, the
table holds what the edit says, put in order by R27, or by R38 against the table's floor where the edit has none; every
scene and every entry no edit names is as it was. -/
def Claims.StagingListIsApplied : Prop :=
  ∀ (c : Calendar) (limit : Fin 8 → Nat → Nat), (c.staging.map fun x => x.edit.key).Nodup →
    (∀ x ∈ c.staging, match x.edit with
      | .entry i e => (c.applyStaging limit).entries.get i = e
      | .params p f => (c.applyStaging limit).params.get (phaseIndex p)
          = (c.params.get (phaseIndex p)).write (f.clamp limit)
      | .scene p g level vacant (some floor) => (c.applyStaging limit).sceneAt p g = orderScene level vacant floor
      | .scene p g level vacant none =>
          (c.applyStaging limit).sceneAt p g = orderPanelScene level vacant (c.sceneAt p g).floor)
    ∧ (∀ i, c.isStaged (.entry i) = false → (c.applyStaging limit).entries.get i = c.entries.get i)
    ∧ (∀ p, c.isStaged (.params p) = false →
      (c.applyStaging limit).params.get (phaseIndex p) = c.params.get (phaseIndex p))
    ∧ (∀ p g, c.isStaged (.scene p g) = false → (c.applyStaging limit).sceneAt p g = c.sceneAt p g)
    ∧ (c.applyStaging limit).staging = []

/-- An edit offered to the staging list (R32, R38): a new key joins the end while the list holds fewer than 16 edits and
meets FULL otherwise; a key already present never does: its edit keeps its position and takes the new content, a phase's
fields merged and a scene's pending floor kept where the new content has none. -/
def Claims.StagingListTakesEdits : Prop :=
  ∀ (c : Calendar) (e : Edit) (l : Link),
    (c.isStaged e.key = false → c.staging.length < 16 →
      c.stage e l = some { c with staging := c.staging ++ [⟨e, l⟩] })
    ∧ (c.isStaged e.key = false → 16 ≤ c.staging.length → c.stage e l = none)
    ∧ (c.isStaged e.key = true → ∃ d, c.stage e l = some d ∧ d = { c with staging := d.staging }
      ∧ (d.staging.map fun x => x.edit.key) = (c.staging.map fun x => x.edit.key)
      ∧ ∀ (n : Nat) (x : StagedEdit), c.staging[n]? = some x →
          (x.edit.key ≠ e.key → d.staging[n]? = some x)
          ∧ (x.edit.key = e.key → d.staging[n]? = some
              ⟨match x.edit, e with
                | .params p f, .params _ g => .params p
                    { setpoints := Table.ofFn fun z => (g.setpoints.get z).or (f.setpoints.get z)
                      vent := g.vent.or f.vent, fallback := g.fallback.or f.fallback
                      longOpen := g.longOpen.or f.longOpen, cap := g.cap.or f.cap }
                | .scene _ _ _ _ old, .scene p g level vacant new => .scene p g level vacant (new.or old)
                | _, new => new, l⟩))

/-- The staging list: how it takes an edit, and how a transition applies it. -/
def Obligations.StagingList : Prop :=
  Claims.StagingListIsApplied ∧ Claims.StagingListTakesEdits

/-- CAL_WRITE (R6, R32, R33). That an OK answer is bare, that a CLAMPED one carries the entry, and that a mode that is neither
AT_ONCE nor STAGED is answered RANGE, is the model's reading (assumption 18). -/
def Claims.CalWrite : Prop :=
  (∀ (s : State) (o : Origin) (a : CalWriteArgs) (i : Fin 24) (p : Phase) (e : CalEntry) (r : Reply),
    s.Admits .calWrite o → a.index.toNat = i.val → a.phase = some p → a.start.toNat ≤ 1439 →
    e = ⟨a.enabled, a.days, a.start.toNat, p, a.shiftStart, min 120 a.allowance.toNat⟩ →
    r = (if a.allowance.toNat ≤ 120 then ⟨.ok, .bare⟩ else ⟨.clamped, .calStored i e⟩) →
    (a.mode = some .atOnce → exec (.calWrite o (some a)) s
      = .next (State.answered
          { s with calendar := { s.calendar with
              entries := s.calendar.entries.set i e
              staging := s.calendar.staging.filter fun x => x.edit.key ≠ .entry i } } .calWrite o r))
    ∧ (a.mode = some .staged → exec (.calWrite o (some a)) s
      = .next (match s.calendar.stage (.entry i e) o.link with
          | some c => State.answered { s with calendar := c } .calWrite o r
          | none => s.answered .calWrite o ⟨.full, .bare⟩)))
  ∧ ∀ (s : State) (o : Origin) (a : CalWriteArgs), s.Admits .calWrite o →
    23 < a.index.toNat ∨ a.phase = none ∨ 1439 < a.start.toNat ∨ a.mode = none →
    exec (.calWrite o (some a)) s = .next (s.answered .calWrite o ⟨.range, .bare⟩)

/-- CAL_READ, STAGED_READ and STAGED_DISCARD (R7, R35, R36): CAL_READ shows the entry of the calendar and whether an edit of
it is staged; STAGED_READ returns the number of edits and, from position `first` on, as many whole edits as the body
holds, the 245 bytes left being the model's reckoning (assumption 38); STAGED_DISCARD empties the list and nothing else. -/
def Claims.CalReadAndStagingReads : Prop :=
  (∀ (s : State) (o : Origin) (a : IndexArgs) (i : Fin 24), s.Admits .calRead o → a.index.toNat = i.val →
    exec (.calRead o (some a)) s = .next (s.answered .calRead o
      ⟨.ok, .calEntry i (s.calendar.entries.get i) (s.calendar.staging.any fun x => x.edit.key == .entry i)⟩))
  ∧ (∀ (s : State) (o : Origin) (a : IndexArgs), s.Admits .calRead o → 23 < a.index.toNat →
    exec (.calRead o (some a)) s = .next (s.answered .calRead o ⟨.range, .bare⟩))
  ∧ (∀ (s : State) (o : Origin) (a : IndexArgs), s.Admits .stagedRead o →
    ∃ edits, exec (.stagedRead o (some a)) s
        = .next (s.answered .stagedRead o ⟨.ok, .staged s.calendar.staging.length edits⟩)
      ∧ edits <+: ((List.range s.calendar.staging.length).zip s.calendar.staging).drop a.index.toNat
      ∧ (edits.map fun x => (Wire.stagedEdit x).length).sum ≤ 245
      ∧ ∀ more, more <+: ((List.range s.calendar.staging.length).zip s.calendar.staging).drop a.index.toNat →
          (more.map fun x => (Wire.stagedEdit x).length).sum ≤ 245 → more.length ≤ edits.length)
  ∧ ∀ (s : State) (o : Origin), s.Admits .stagedDiscard o →
    exec (.stagedDiscard o (some ())) s
      = .next (State.answered { s with calendar := { s.calendar with staging := [] } } .stagedDiscard o
          ⟨.ok, .discarded s.calendar.staging.length⟩)

/-- CAL_WRITE, CAL_READ, STAGED_READ and STAGED_DISCARD. -/
def Obligations.CalendarCalls : Prop :=
  Claims.CalWrite ∧ Claims.CalReadAndStagingReads

/-- CAL_SETTINGS (R19): present fields replace their settings, absent ones leave them, and the phase in force stands. -/
def Claims.CalSettings : Prop :=
  (∀ (s : State) (o : Origin) (a : CalSettingsArgs) (p : Phase) (rate : Nat), s.Admits .calSettings o →
    (a.noClock = some (some p) ∨ a.noClock = none ∧ p = s.calendar.noClock) →
    rate = (match a.leadRate with | some r => r.toNat | none => s.calendar.leadRate) →
    exec (.calSettings o (some a)) s
      = .next (State.answered { s with calendar := { s.calendar with noClock := p, leadRate := rate } } .calSettings o
          ⟨.ok, .calSettings p rate⟩))
  ∧ ∀ (s : State) (o : Origin) (a : CalSettingsArgs), s.Admits .calSettings o → a.noClock = some none →
    exec (.calSettings o (some a)) s = .next (s.answered .calSettings o ⟨.range, .bare⟩)

/-- PHASE_READ (R10): the fields of the PHASE notice, with the override's end wrapped at the week's end (R15) and the
scheduled phase by the lookup, the no-clock phase while the clock is UNSET; with the clock state. -/
def Claims.PhaseRead : Prop :=
  ∀ (s : State) (o : Origin), s.Admits .phaseRead o →
    exec (.phaseRead o (some ())) s = .next (s.answered .phaseRead o ⟨.ok, .phase
      { phase := s.calendar.record.phase, source := s.calendar.record.source, entered := s.calendar.record.entered
        overrideEnd :=
          match s.calendar.record.override with
          | some ⟨some n⟩ => some ((s.clock.weekSecond + n) % 604800)
          | _ => none
        scheduled := if s.clock.running then
            lookup s.calendar.entries s.calendar.noClock (s.clock.weekSecond / 60) else s.calendar.noClock }
      s.clock.running⟩)

/-- PHASE_FORCE (R16): a transition to the phase with source FORCED, or the override record alone replaced where that phase
is already forced; the steps of the transition are `TransitionLeaves`. -/
def Claims.PhaseForce : Prop :=
  (∀ (s : State) (o : Origin) (a : PhaseForceArgs) (p : Phase) (m : Nat) (v : Override) (r : Reply),
    s.Admits .phaseForce o → a.phase = some p → m = min 1440 a.minutes.toNat →
    v = ⟨if m = 0 then none else some (60 * m)⟩ →
    r = ⟨if a.minutes.toNat ≤ 1440 then .ok else .clamped,
      .overrideEnd (if m = 0 then none else some ((s.clock.weekSecond + 60 * m) % 604800))⟩ →
    exec (.phaseForce o (some a)) s = .next
      (if s.calendar.record.source = .forced ∧ s.calendar.record.phase = p then
        State.answered { s with calendar := { s.calendar with record := { s.calendar.record with override := some v } } }
          .phaseForce o r
      else ((((s.unanswered o).enter p .forced (some v)).answer .phaseForce o r).handOn s.phase false)))
  ∧ ∀ (s : State) (o : Origin) (a : PhaseForceArgs), s.Admits .phaseForce o → a.phase = none →
    exec (.phaseForce o (some a)) s = .next (s.answered .phaseForce o ⟨.range, .bare⟩)

/-- PHASE_EXTEND (R17), judged in the order of its table: OVERRIDDEN, WRONG_PHASE, a running extension lengthened up to
14,400 seconds without a transition, or a transition to the same phase with source EXTENDED. -/
def Claims.PhaseExtend : Prop :=
  ∀ (s : State) (o : Origin) (a : PhaseExtendArgs) (m : Nat), s.Admits .phaseExtend o →
    m = max 15 (min 120 a.minutes.toNat) →
    exec (.phaseExtend o (some a)) s = .next
      (if s.calendar.record.source = .forced then s.answered .phaseExtend o ⟨.overridden, .bare⟩
      else if s.calendar.record.phase ≠ .work ∧ s.calendar.record.phase ≠ .changeover then
        s.answered .phaseExtend o ⟨.wrongPhase, .bare⟩
      else
        let st : Status := if m = a.minutes.toNat then .ok else .clamped
        if s.calendar.record.source = .extended then
          let n := min 14400 (((s.calendar.record.override.bind Override.remaining).getD 0) + 60 * m)
          State.answered
            { s with calendar := { s.calendar with record := { s.calendar.record with override := some ⟨some n⟩ } } }
            .phaseExtend o ⟨st, .extendedEnd ((s.clock.weekSecond + n) % 604800)⟩
        else
          ((((s.unanswered o).enter s.phase .extended (some ⟨some (60 * m)⟩)).answer .phaseExtend o
            ⟨st, .extendedEnd ((s.clock.weekSecond + 60 * m) % 604800)⟩).handOn s.phase false))

/-- PHASE_FORCE and PHASE_EXTEND. -/
def Obligations.PhaseForceAndExtend : Prop :=
  Claims.PhaseForce ∧ Claims.PhaseExtend

/-- The end of an override by PHASE_RELEASE and by its time (R15, R18): the override record is removed and a transition is
made, with no shift-start mark, to the scheduled phase with source CALENDAR, or with the clock UNSET to the no-clock phase
with source NO_CLOCK; a release with no override active is answered OK and changes nothing. -/
def Obligations.OverrideEnds : Prop :=
  ∀ (s : State) (p : Phase) (src : Source),
    (p, src) = (if s.clock.running then
        (lookup s.calendar.entries s.calendar.noClock (s.clock.weekSecond / 60), Source.calendar)
      else (s.calendar.noClock, .noClock)) →
    (∀ o, s.Admits .phaseRelease o →
      (s.calendar.record.source = .forced ∨ s.calendar.record.source = .extended →
        exec (.phaseRelease o (some ())) s
          = .next (((s.unanswered o).enter p src none).answer .phaseRelease o ⟨.ok, .bare⟩ |>.handOn s.phase false))
      ∧ (s.calendar.record.source ≠ .forced → s.calendar.record.source ≠ .extended →
        exec (.phaseRelease o (some ())) s = .next (s.answered .phaseRelease o ⟨.ok, .bare⟩)))
    ∧ ∀ n, s.power = .running → .override ∈ s.owed → s.calendar.record.override = some ⟨some n⟩ → n ≤ 1 →
      exec .overrideTimeEnd s = .next (State.transition { s with owed := s.owed.erase .override } p src none false)

/-- PHASE_WRITE (R28, R30, R32, R33, R37): the supervisor's fields clamped; the panel's setpoints alone kept, clamped into
the zone's panel band. What is kept is written at once, a pending edit of the phase removed, or offered to the staging
list; when nothing is kept nothing changes. That the Door Unit takes a written long-open limit before the Load Allocator a
written cap, both after the answer, is the model's choice (assumptions 6, 40). -/
def Claims.PhaseWrite : Prop :=
  (∀ (s : State) (o : Origin) (a : PhaseWriteArgs) (p : Phase) (f g : PhaseFields) (st : Status),
    s.Admits .phaseWrite o → a.phase = some p → a.items ≠ [] → PhaseFields.ofItems a.items .empty = some f →
    (o.link = .supervisor ∧ g = f.clamp s.setpointLimit ∧ st = (if g = f then .ok else .clamped)
      ∨ o.link = .panel
        ∧ g = (PhaseFields.setpointsOnly f).clamp (fun z v =>
            s.setpointLimit z ((s.climate.zones.get z).config.clampBand v))
        ∧ st = (if f.setpointsOnly ≠ f then .partially else if g = f then .ok else .clamped)) →
    (a.mode = some .atOnce → exec (.phaseWrite o (some a)) s = .next
      (if g = .empty then s.answered .phaseWrite o ⟨st, .phaseFields g⟩
      else State.fieldsChanged
        (State.answered
          { s with calendar := { s.calendar with
              params := s.calendar.params.set (phaseIndex p) ((s.paramsOf p).write g)
              staging := s.calendar.staging.filter fun x => x.edit.key ≠ .params p } }
          .phaseWrite o ⟨st, .phaseFields g⟩) p g))
    ∧ (a.mode = some .staged → exec (.phaseWrite o (some a)) s = .next
      (if g = .empty then s.answered .phaseWrite o ⟨st, .phaseFields g⟩
      else match s.calendar.stage (.params p g) o.link with
        | some c => State.answered { s with calendar := c } .phaseWrite o ⟨st, .phaseFields g⟩
        | none => s.answered .phaseWrite o ⟨.full, .bare⟩)))
  ∧ ∀ (s : State) (o : Origin) (a : PhaseWriteArgs), s.Admits .phaseWrite o →
    a.phase = none ∨ a.items = [] ∨ .noSuchField ∈ a.items ∨ (∃ z v, .setpoint z v ∈ a.items ∧ 7 < z.toNat)
      ∨ a.mode = none →
    exec (.phaseWrite o (some a)) s = .next (s.answered .phaseWrite o ⟨.range, .bare⟩)

/-- The fields of a PHASE_WRITE (R28, R30): vent minimum, fallback stages and long-open limit clamped to 3, 4 and 240, each
setpoint moved where its limit moves it, and the fields not named left as they were in the record. -/
def Claims.PhaseFieldsClampedAndWritten : Prop :=
  ∀ (f : PhaseFields) (limit : Fin 8 → Nat → Nat) (r : PhaseParams),
    (∀ z, (r.write (f.clamp limit)).setpoints.get z
      = match f.setpoints.get z with | some v => limit z v | none => r.setpoints.get z)
    ∧ (r.write (f.clamp limit)).vent = (match f.vent with | some v => min 3 v | none => r.vent)
    ∧ (r.write (f.clamp limit)).fallback = (match f.fallback with | some v => min 4 v | none => r.fallback)
    ∧ (r.write (f.clamp limit)).longOpen = (match f.longOpen with | some v => min 240 v | none => r.longOpen)
    ∧ (r.write (f.clamp limit)).cap = (match f.cap with | some v => v | none => r.cap)

/-- The fields a PHASE_WRITE names (R28): the list names fields unless an item names a zone above 7 or a field that does not
exist; each field has the value of the last item that names it, and none where no item does. -/
def Claims.PhaseItemsNamed : Prop :=
  ∀ items : List PhaseItem,
    (PhaseFields.ofItems items .empty = none ↔
      .noSuchField ∈ items ∨ ∃ z v, .setpoint z v ∈ items ∧ 7 < z.toNat)
    ∧ ∀ f, PhaseFields.ofItems items .empty = some f →
      (∀ z : Fin 8, f.setpoints.get z = items.reverse.findSome? fun i =>
        match i with | .setpoint y v => if y.toNat = z.val then some v.toNat else none | _ => none)
      ∧ f.vent = items.reverse.findSome? (fun i => match i with | .ventMinimum v => some v.toNat | _ => none)
      ∧ f.fallback = items.reverse.findSome? (fun i => match i with | .fallback v => some v.toNat | _ => none)
      ∧ f.longOpen = items.reverse.findSome? (fun i => match i with | .longOpen v => some v.toNat | _ => none)
      ∧ f.cap = items.reverse.findSome? (fun i => match i with | .phaseCap v => some v.toNat | _ => none)

/-- PHASE_WRITE, the fields its items name, and how they are clamped and written. -/
def Obligations.PhaseWriteCall : Prop :=
  Claims.PhaseWrite ∧ Claims.PhaseItemsNamed ∧ Claims.PhaseFieldsClampedAndWritten

/-- SCENE_WRITE (R29, R30, R32, R33, R38): the supervisor's scene ordered by R27; the panel's level and vacant level ordered
against the floor the table holds, its own floor set aside and the answer PARTIAL. -/
def Claims.SceneWrite : Prop :=
  (∀ (s : State) (o : Origin) (a : SceneWriteArgs) (p : Phase) (g : Fin 24) (x : Scene) (r : Reply),
    s.Admits .sceneWrite o → a.phase = some p → a.group.toNat = g.val →
    (o.link = .supervisor ∧ x = orderScene a.level.toNat a.vacant.toNat a.floor.toNat
        ∧ r = ⟨if x = ⟨a.level.toNat, a.vacant.toNat, a.floor.toNat⟩ then .ok else .clamped, .scene x⟩
      ∨ o.link = .panel ∧ x = orderPanelScene a.level.toNat a.vacant.toNat (s.sceneOf p g).floor
        ∧ r = ⟨.partially, .panelScene x.level x.vacant⟩) →
    (a.mode = some .atOnce → exec (.sceneWrite o (some a)) s
      = .next (State.sceneWritten
          (State.answered
            { s with calendar := { s.calendar with
                scenes := s.calendar.scenes.set (phaseIndex p) ((s.calendar.scenes.get (phaseIndex p)).set g x)
                staging := s.calendar.staging.filter fun y => y.edit.key ≠ .scene p g } }
            .sceneWrite o r) p g))
    ∧ (a.mode = some .staged → o.link = .supervisor → exec (.sceneWrite o (some a)) s
      = .next (match s.calendar.stage (.scene p g x.level x.vacant (some x.floor)) .supervisor with
          | some c => State.answered { s with calendar := c } .sceneWrite o r
          | none => s.answered .sceneWrite o ⟨.full, .bare⟩))
    ∧ (a.mode = some .staged → o.link = .panel → exec (.sceneWrite o (some a)) s
      = .next (match s.calendar.stage (.scene p g (min 100 a.level.toNat) (min 100 a.vacant.toNat) none) .panel with
          | some c => State.answered { s with calendar := c } .sceneWrite o
              ⟨.partially, .panelScene (min 100 a.level.toNat) (min 100 a.vacant.toNat)⟩
          | none => s.answered .sceneWrite o ⟨.full, .bare⟩)))
  ∧ ∀ (s : State) (o : Origin) (a : SceneWriteArgs), s.Admits .sceneWrite o →
    a.phase = none ∨ 23 < a.group.toNat ∨ a.mode = none →
    exec (.sceneWrite o (some a)) s = .next (s.answered .sceneWrite o ⟨.range, .bare⟩)

/-- The order of a scene (R26, R27, R38). The supervisor's: values above 100 taken as 100, the level then kept, the floor and
the vacant level lowered if need be. The panel's: the level and the vacant level raised to the kept floor if need be, the
vacant level lowered to the level. Both in order afterwards. -/
def Claims.ScenesPutInOrder : Prop :=
  (∀ level vacant floor : Nat, (orderScene level vacant floor).Ordered
    ∧ (orderScene level vacant floor).level = min 100 level
    ∧ (orderScene level vacant floor).vacant = min (min 100 vacant) (min 100 level)
    ∧ (orderScene level vacant floor).floor = min (min 100 floor) (min (min 100 vacant) (min 100 level)))
  ∧ orderScene 60 80 70 = ⟨60, 60, 60⟩ ∧ orderScene 120 40 50 = ⟨100, 40, 40⟩
  ∧ ∀ level vacant floor : Nat, floor ≤ 100 →
    (orderPanelScene level vacant floor).Ordered
    ∧ (orderPanelScene level vacant floor).floor = floor
    ∧ (orderPanelScene level vacant floor).level = max (min 100 level) floor
    ∧ (orderPanelScene level vacant floor).vacant = min (max (min 100 vacant) floor) (max (min 100 level) floor)

/-- SCENE_WRITE, and the order it puts a scene in. -/
def Obligations.SceneWriteCall : Prop :=
  Claims.SceneWrite ∧ Claims.ScenesPutInOrder

/-- Table-change events (R30, R47, R106, R109, R138): a write to a phase not in force hands none. In the phase in force a written
long-open limit is compared at once with every OPEN door: one at or beyond it becomes HELD with DOOR_HELD, one below it, or with a
limit of 0, stays OPEN, and no other door changes. A written cap is taken, and a pass follows exactly where the cap in force has
changed (`PassesAreHanded`); of a write that names both, the doors are compared first (assumption 40). A written scene is followed
by the group's desired level. -/
def Obligations.TableChangeEvents : Prop :=
  Claims.PhaseCapsTaken
  ∧ (∀ (s : State) (p : Phase) (f : PhaseFields), p ≠ s.phase ∨ f.longOpen = none ∧ f.cap = none → s.fieldsChanged p f = s)
  ∧ (∀ (s : State) (p : Phase) (g : Fin 24), p ≠ s.phase → s.sceneWritten p g = s)
  ∧ (∀ (s t : State) (f : PhaseFields) (limit : Nat), f.longOpen ≠ none → limit = (s.paramsOf s.phase).longOpen →
    t = s.fieldsChanged s.phase f →
    (∀ d, t.channel d = { s.channel d with state :=
      if (s.channel d).state = .opened ∧ limit ≠ 0 ∧ 60 * limit ≤ (s.channel d).interval then .held else (s.channel d).state })
    ∧ ((∃ d, (s.channel d).state = .opened ∧ limit ≠ 0 ∧ 60 * limit ≤ (s.channel d).interval) →
      t.links.isSet .doorHeld = true)
    ∧ ((∀ d, (s.channel d).state = .opened → limit = 0 ∨ (s.channel d).interval < 60 * limit) → f.cap = none → t = s))
  ∧ (∀ (s t u v : State) (f : PhaseFields), f.cap ≠ none → t = s.fieldsChanged s.phase f →
    u = s.fieldsChanged s.phase { f with cap := none } →
    v = { u with budget := { u.budget with phaseCap := (s.paramsOf s.phase).cap } } →
    t = (if v.budget.capInForce = s.budget.capInForce then v else v.passAndHand)
    ∧ t.budget.phaseCap = (s.paramsOf s.phase).cap ∧ u.budget = s.budget)
  ∧ ∀ (s : State) (g : Fin 24),
    ((s.sceneWritten s.phase g).lighting.groups.get g).desired
      = (s.lighting.groups.get g).desiredNow (s.scene g) s.lighting.taken

/-- PHASE_TABLE_READ and SCENE_READ (R39): the record or the scene as the tables hold it, with a mark for a staged edit of
its key. -/
def Claims.TableReads : Prop :=
  (∀ (s : State) (o : Origin) (a : PhaseTableReadArgs), s.Admits .phaseTableRead o →
    exec (.phaseTableRead o (some a)) s = .next (s.answered .phaseTableRead o
      (match a.phase with
        | some p => ⟨.ok, .phaseTable (s.calendar.params.get (phaseIndex p))
            (s.calendar.staging.any fun x => x.edit.key == .params p)⟩
        | none => ⟨.range, .bare⟩)))
  ∧ (∀ (s : State) (o : Origin) (a : SceneReadArgs) (p : Phase) (g : Fin 24), s.Admits .sceneRead o →
    a.phase = some p → a.group.toNat = g.val →
    exec (.sceneRead o (some a)) s = .next (s.answered .sceneRead o
      ⟨.ok, .sceneRead ((s.calendar.scenes.get (phaseIndex p)).get g)
        (s.calendar.staging.any fun x => x.edit.key == .scene p g)⟩))
  ∧ ∀ (s : State) (o : Origin) (a : SceneReadArgs), s.Admits .sceneRead o → a.phase = none ∨ 23 < a.group.toNat →
    exec (.sceneRead o (some a)) s = .next (s.answered .sceneRead o ⟨.range, .bare⟩)

/-- CAL_SETTINGS, PHASE_READ, PHASE_TABLE_READ and SCENE_READ. -/
def Obligations.SettingsAndTableReads : Prop :=
  Claims.CalSettings ∧ Claims.PhaseRead ∧ Claims.TableReads

/-! ### Door Unit -/

/-- DOOR_CONFIG (R41, R64): refused RANGE, or ACTIVE unless the door is UNUSED or the zone it names is OFF or none, RANGE where
both hold, which is the model's choice (assumption 66); otherwise
the configuration is replaced, any forecast of the door removed, the channel initialised with its shift counters kept, and
the old and the new curtain re-evaluate, in that order, after the answer (assumptions 6, 41). -/
def Claims.DoorConfigCall : Prop :=
  (∀ (s : State) (o : Origin) (a : DoorConfigArgs) (d : Fin 32) (zone : Option (Fin 8)) (curtain : Option (Fin 16))
      (x y : Channel) (c : DoorConfig),
    s.Admits .doorConfig o → a.door.toNat = d.val → a.zone.map BitVec.toNat = zone.map Fin.val →
    a.curtain.map BitVec.toNat = curtain.map Fin.val → x = s.channel d →
    c = ⟨a.configured, zone, curtain, min 31 a.doorDebounce.toNat, a.trailerDebounce.toNat, a.capture⟩ →
    y = { x with
      config := c, state := .unused, trailer := false, trailerSettled := false, doorPending := none, trailerPending := none
      interval := if a.configured then 0 else x.interval, lastEdge := if a.configured then none else x.lastEdge
      lastOpen := if a.configured then none else x.lastOpen
      lastClosed := if a.configured then none else x.lastClosed } →
    exec (.doorConfig o (some a)) s = .next
      (if x.state = .unused ∨ (∀ z, x.config.zone = some z → s.zoneMode z = .off) then
        ((State.answered
          { s with doors := { s.doors with
              channels := s.doors.channels.set d y, forecasts := s.doors.forecasts.filter fun f => f.door ≠ d } }
          .doorConfig o ⟨if a.doorDebounce.toNat ≤ 31 then .ok else .clamped, .doorConfig c⟩).reevaluateOf
            x.config.curtain).reevaluateOf curtain
      else s.answered .doorConfig o ⟨.active, .bare⟩))
  ∧ ∀ (s : State) (o : Origin) (a : DoorConfigArgs), s.Admits .doorConfig o →
    31 < a.door.toNat ∨ (∃ z, a.zone = some z ∧ 7 < z.toNat) ∨ (∃ c, a.curtain = some c ∧ 15 < c.toNat) →
    exec (.doorConfig o (some a)) s = .next (s.answered .doorConfig o ⟨.range, .bare⟩)

/-- DOOR_READ (R65), on both links. -/
def Claims.DoorRead : Prop :=
  ∀ (s : State) (o : Origin) (a : IndexArgs), s.Admits .doorRead o →
    (∀ d : Fin 32, a.index.toNat = d.val → exec (.doorRead o (some a)) s = .next (s.answered .doorRead o ⟨.ok, .door
      { channel := s.doors.channels.get d
        forecast := (s.doors.forecasts.find? fun f => f.door = d).map fun f =>
          (f.seconds, (s.clock.weekSecond + f.seconds) % 604800)
        curtain := (s.doors.channels.get d).config.curtain.map fun c =>
          ((s.doors.curtains.get c).state, (s.doors.curtains.get c).granted) }⟩))
    ∧ (31 < a.index.toNat → exec (.doorRead o (some a)) s = .next (s.answered .doorRead o ⟨.range, .bare⟩))

/-- DOOR_CONFIG and DOOR_READ. -/
def Obligations.DoorConfigAndRead : Prop :=
  Claims.DoorConfigCall ∧ Claims.DoorRead

/-- CURTAIN_CONFIG (R55): RANGE; a read in any state when all three fields are absent; ACTIVE unless the curtain is IDLE, RANGE
where both hold, which is the model's choice (assumption 66);
otherwise the present fields are written and the curtain re-evaluates, becoming DEMANDED where it is wanted, its demand
taken by the allocator at once: the answer carries the record as it stands then, granted where its rating is at most the headroom
(R122, assumption 21). -/
def Obligations.CurtainConfigCall : Prop :=
  (∀ (s u : State) (o : Origin) (a : CurtainConfigArgs) (c : Fin 16) (zone : Option (Fin 8)) (x y : Curtain) (st : Status),
    s.Admits .curtainConfig o → a.curtain.toNat = c.val → a.zone.map BitVec.toNat = zone.map Fin.val →
    x = s.doors.curtains.get c →
    y = { x with config :=
      ⟨a.configured.getD x.config.configured, zone.getD x.config.zone,
        match a.runOn with | some v => min 120 v.toNat | none => x.config.runOn⟩ } →
    st = (if ∃ v, a.runOn = some v ∧ 120 < v.toNat then .clamped else .ok) → u = s.setCurtain c y →
    exec (.curtainConfig o (some a)) s = .next
      (if a.configured = none ∧ a.zone = none ∧ a.runOn = none then s.answered .curtainConfig o ⟨.ok, .curtain x⟩
      else if x.state ≠ .idle then s.answered .curtainConfig o ⟨.active, .bare⟩
      else if u.curtainWanted c = true then
        State.answered ((s.setCurtain c { y with state := .demanded }).curtainDemand c) .curtainConfig o
          ⟨st, .curtain { y with
            state := .demanded
            granted := y.granted
              || decide ((s.budget.ratings.curtains.get c : Int) ≤ (s.budget.capInForce : Int) - (s.budget.total : Int)) }⟩
      else u.answered .curtainConfig o ⟨st, .curtain y⟩))
  ∧ ∀ (s : State) (o : Origin) (a : CurtainConfigArgs), s.Admits .curtainConfig o →
    15 < a.curtain.toNat ∨ (∃ z, a.zone = some z ∧ 7 < z.toNat) →
    exec (.curtainConfig o (some a)) s = .next (s.answered .curtainConfig o ⟨.range, .bare⟩)

/-- When a curtain is wanted (R52): while it is configured, its zone is not OFF, and a configured channel that names it is OPEN or
HELD. -/
def Claims.CurtainWanted : Prop :=
  ∀ (s : State) (c : Fin 16), s.curtainWanted c = true ↔
    (s.doors.curtains.get c).config.configured = true ∧ s.zoneMode (s.doors.curtains.get c).config.zone ≠ .off
      ∧ ∃ d, (s.channel d).config.configured = true ∧ (s.channel d).config.curtain = some c
        ∧ ((s.channel d).state = .opened ∨ (s.channel d).state = .held)

/-- A curtain's re-evaluation (R52, R53, R54), the whole of it in each cell of R52's table: its new record, and then the demand
or the release that is handed, or nothing (`CurtainHandsAreTaken`). Wanted, an IDLE curtain is DEMANDED and hands a demand; a DEMANDED
one stands; one in RUN_ON is DEMANDED again with its run-on dropped, nothing handed and any grant kept. Not wanted, an IDLE
curtain stands; with its zone OFF any other is IDLE and hands its release; with its zone not OFF one in RUN_ON stands, and a
DEMANDED one enters its run-on, handing nothing, or, with a run-on of 0, is IDLE and hands its release. Where nothing is handed
no other part of the state changes. -/
def Claims.CurtainsReevaluate : Prop :=
  ∀ (s : State) (c : Fin 16) (x : Curtain), x = s.doors.curtains.get c →
    (s.curtainWanted c = true →
      (x.state = .idle → s.reevaluate c = (s.setCurtain c { x with state := .demanded }).curtainDemand c)
      ∧ (x.state = .demanded → s.reevaluate c = s)
      ∧ (x.state = .runOn → s.reevaluate c = s.setCurtain c { x with state := .demanded, remaining := none }))
    ∧ (s.curtainWanted c = false → s.zoneMode x.config.zone = .off →
      (x.state = .idle → s.reevaluate c = s)
      ∧ (x.state ≠ .idle →
        s.reevaluate c = (s.setCurtain c { x with state := .idle, remaining := none }).curtainRelease c))
    ∧ (s.curtainWanted c = false → s.zoneMode x.config.zone ≠ .off →
      (x.state = .idle → s.reevaluate c = s) ∧ (x.state = .runOn → s.reevaluate c = s)
      ∧ (x.state = .demanded → x.config.runOn ≠ 0 →
        s.reevaluate c = s.setCurtain c { x with state := .runOn, remaining := some x.config.runOn })
      ∧ (x.state = .demanded → x.config.runOn = 0 →
        s.reevaluate c = (s.setCurtain c { x with state := .idle, remaining := none }).curtainRelease c))

/-- What the allocator makes of the two things a curtain hands (R54, R122, R123, R153). A demand of a curtain that is not IDLE and
not granted is granted exactly where its rating is at most the headroom, the total growing by the rating, and leaves the
curtain as it stands otherwise; either way the latch of every OUTPUT line bound to an owned output function then stands as the
grants say, and no other latch moves. A release of a granted curtain ungrants it, takes its rating from the total, and retries
the waiting curtains (`WaitingCurtainsRetried`); a release of a curtain that waited returns nothing. A curtain that goes to IDLE
with its release stays so, with no run-on and no grant. -/
def Claims.CurtainHandsAreTaken : Prop :=
  (∀ (s u : State) (c : Fin 16) (x : Curtain) (rating : Nat), x = s.doors.curtains.get c →
    rating = s.budget.ratings.curtains.get c → x.state ≠ .idle →
    u = (if x.granted = false ∧ (rating : Int) ≤ (s.budget.capInForce : Int) - (s.budget.total : Int) then
        { s.setCurtain c { x with granted := true } with budget := { s.budget with total := s.budget.total + rating } }
      else s) →
    s.curtainDemand c = u.followGrants)
  ∧ (∀ s : State, s.followGrants = { s with lines := { s.lines with lines := s.followGrants.lines.lines } }
    ∧ ∀ (l : Fin 192) (x : Line) (latch : Bool), x = s.lines.lines.get l →
        latch = (if x.config.mode = .output then (s.functionOn x.config.binding).getD x.latch else x.latch) →
        s.followGrants.lines.lines.get l = { x with latch := latch })
  ∧ (∀ (s : State) (c : Fin 16) (x : Curtain), x = s.doors.curtains.get c →
    (x.granted = false → s.curtainRelease c = s)
    ∧ (x.granted = true → s.curtainRelease c = State.retryCurtains
        { s.setCurtain c { x with granted := false } with
          budget := { s.budget with total := s.budget.total - s.budget.ratings.curtains.get c } }))
  ∧ ∀ (s t : State) (c : Fin 16) (x : Curtain), x = s.doors.curtains.get c →
    t = (s.setCurtain c { x with state := .idle, remaining := none }).curtainRelease c →
    t.doors.curtains.get c = ⟨x.config, .idle, none, false⟩

/-- RUN_ON_END (R53). In a part that runs, with the curtain's second boundary owed: the run-on's last second makes the curtain
IDLE, its run-on absent, and hands its release to the allocator (`CurtainHandsAreTaken`). That this second boundary waits in `owed` for
its row is the model's choice (assumption 1), as is that the row changes nothing where no such boundary waits (assumption 23):
where the curtain has reopened first it is no longer in RUN_ON, and the end does not happen. -/
def Claims.RunOnEnds : Prop :=
  ∀ (s : State) (c : Fin 16) (x : Curtain), s.power = .running → x = s.doors.curtains.get c →
    (∀ n, .curtain c ∈ s.owed → x.state = .runOn → x.remaining = some n → n ≤ 1 →
      exec (.runOnEnd c) s = .next
        ((State.setCurtain { s with owed := s.owed.erase (.curtain c) } c
          { x with state := .idle, remaining := none }).curtainRelease c))
    ∧ (.curtain c ∉ s.owed ∨ x.state ≠ .runOn ∨ x.remaining = none ∨ (∃ n, x.remaining = some n ∧ 1 < n) →
      exec (.runOnEnd c) s = .next s)

/-- A curtain's demand (R52 to R54): when it is wanted, what its re-evaluation makes of it in every cell of R52's table and what it
hands the allocator, what the allocator makes of that, and RUN_ON_END. -/
def Obligations.CurtainsFollowTheirDoors : Prop :=
  Claims.CurtainWanted ∧ Claims.CurtainsReevaluate ∧ Claims.CurtainHandsAreTaken ∧ Claims.RunOnEnds

/-- ARRIVAL_FORECAST and WINDOW_END (R56, R57): a forecast is taken when every condition of R56 holds, replacing the door's
entry; otherwise DROPPED, with nothing changed. The window's last second removes the entry; that this second boundary waits in
`owed` for its row is the model's choice (assumption 1). -/
def Obligations.ForecastsTakenAndEnded : Prop :=
  (∀ (s : State) (o : Origin) (a : ArrivalForecastArgs) (d : Fin 32) (m : Nat), s.Admits .arrivalForecast o →
    a.door.toNat = d.val → m = max 1 (min 30 a.within.toNat) →
    exec (.arrivalForecast o (some a)) s = .next
      (if (s.channel d).config.configured = true
          ∧ (∃ z, (s.channel d).config.zone = some z ∧ s.zoneMode z = .auto ∧ (s.climate.zones.get z).config.boost ≠ 0)
          ∧ (s.phase = .preheat ∨ s.phase = .work ∨ s.phase = .changeover)
          ∧ ((∃ f ∈ s.doors.forecasts, f.door = d) ∨ s.doors.forecasts.length < 8) then
        State.answered
          { s with doors := { s.doors with
              forecasts := (s.doors.forecasts.filter fun f => f.door ≠ d) ++ [⟨d, 60 * m⟩] } }
          .arrivalForecast o
          ⟨if m = a.within.toNat then .ok else .clamped, .windowEnd ((s.clock.weekSecond + 60 * m) % 604800)⟩
      else s.answered .arrivalForecast o ⟨.dropped, .bare⟩))
  ∧ (∀ (s : State) (o : Origin) (a : ArrivalForecastArgs), s.Admits .arrivalForecast o → 31 < a.door.toNat →
    exec (.arrivalForecast o (some a)) s = .next (s.answered .arrivalForecast o ⟨.range, .bare⟩))
  ∧ ∀ (s : State) (d : Fin 32) (f : Forecast), s.Bounded → s.power = .running → .forecast d ∈ s.owed →
    f ∈ s.doors.forecasts → f.door = d → f.seconds ≤ 1 →
    exec (.windowEnd d) s = .next
      { s with
        owed := s.owed.erase (.forecast d)
        doors := { s.doors with forecasts := s.doors.forecasts.filter fun f => f.door ≠ d } }

/-- DOORQ_THRESHOLDS, DOORQ_NOTICES, DOORQ_READ and DOORQ_FLUSH (R59, R61, R62, R63): lowering the threshold in force, or
turning the notices on, makes the batch check at once; DOORQ_READ removes records only where its answer joins the
outbound queue. That the batch check comes before the answer, and that a call which finds the notices on already makes none, are
the model's choices (assumptions 45, 65). -/
def Obligations.DoorQueueCalls : Prop :=
  (∀ (s u : State) (o : Origin) (a : DoorqThresholdsArgs) (busy quiet : Nat) (st : Status), s.Admits .doorqThresholds o →
    busy = (match a.busy with | some v => max 1 (min 64 v.toNat) | none => s.doors.busy) →
    quiet = (match a.quiet with | some v => max 1 (min 64 v.toNat) | none => s.doors.quiet) →
    st = (if (∃ v, a.busy = some v ∧ v.toNat ≠ busy) ∨ (∃ v, a.quiet = some v ∧ v.toNat ≠ quiet) then .clamped else .ok) →
    u = State.unanswered { s with doors := { s.doors with busy := busy, quiet := quiet } } o →
    exec (.doorqThresholds o (some a)) s = .next
      ((if (if s.phase = .work ∨ s.phase = .changeover then busy else quiet)
          < (if s.phase = .work ∨ s.phase = .changeover then s.doors.busy else s.doors.quiet)
        then u.batchCheck else u).answer .doorqThresholds o ⟨st, .thresholds busy quiet⟩))
  ∧ (∀ (s u : State) (o : Origin) (a : OnOffArgs), s.Admits .doorqNotices o →
    u = State.unanswered { s with doors := { s.doors with notices := a.on } } o →
    exec (.doorqNotices o (some a)) s = .next
      ((if a.on = true ∧ s.doors.notices = false then u.batchCheck else u).answer .doorqNotices o ⟨.ok, .bare⟩))
  ∧ (∀ (s : State) (o : Origin) (a : DoorqReadArgs) (n : Nat), s.Admits .doorqRead o → n = min 24 a.count.toNat →
    exec (.doorqRead o (some a)) s = .next
      (State.answered
        { s with doors := { s.doors with
            queue := if (s.links.link o.link).queue.length < 8 then s.doors.queue.drop n else s.doors.queue } }
        .doorqRead o ⟨.ok, .doorRecords (s.doors.queue.take n) (s.doors.queue.length - n)⟩))
  ∧ ∀ (s : State) (o : Origin), s.Admits .doorqFlush o →
    exec (.doorqFlush o (some ())) s
      = .next (State.answered { s with doors := { s.doors with queue := [] } } .doorqFlush o
          ⟨.ok, .discarded s.doors.queue.length⟩)

/-- The frames of a batch (R60, R168): its records in order, 24 to a part and the rest in the last, each part marked with its
number and the number of parts. The number of the first part is a free value (assumption 35). -/
def Claims.BatchesAreCutInParts : Prop :=
  ∀ (rs : List DoorRecord) (i : Nat), (batchRun rs)[i]? =
    if 24 * i < rs.length then
      some ⟨0xF2, 0, .notice (.doorBatch (Config.firstPart + i) ((rs.length + 23) / 24) ((rs.drop (24 * i)).take 24))⟩
    else none

/-- The threshold in force (R59): the busy one in WORK and CHANGEOVER, the quiet one in every other phase. -/
def Claims.ThresholdInForce : Prop :=
  ∀ s : State, ((s.phase = .work ∨ s.phase = .changeover) → s.threshold = s.doors.busy)
    ∧ (s.phase = .setback ∨ s.phase = .preheat ∨ s.phase = .breakTime ∨ s.phase = .cleandown →
      s.threshold = s.doors.quiet)

/-- The batch check (R58, R59, R60): with the notices off, or a RESTART accepted (R170, assumption 39), nothing moves; with
them on, whole batches of the threshold in force, busy or quiet by the phase (R59), leave the front of the queue, oldest first,
each as its run of parts at the end of the supervisor link's queue, until fewer records than the threshold are left or the next
run finds no room. Nothing else of the part changes. -/
def Obligations.BatchCheckEmptiesTheQueue : Prop :=
  Claims.BatchesAreCutInParts ∧ Claims.ThresholdInForce
  ∧ (∀ s : State, s.doors.notices = false ∨ s.links.restart ≠ none → s.batchCheck = s)
  ∧ ∀ (s t : State) (x y : LinkState) (n parts : Nat), s.doors.notices = true → s.links.restart = none →
    x = s.links.supervisor → x.queue.length ≤ 8 → n = s.threshold → 1 ≤ n → parts = (n + 23) / 24 → t = s.batchCheck →
    y = t.links.supervisor →
    ∃ j, j * n ≤ s.doors.queue.length
      ∧ t = { s with
          doors := { s.doors with queue := s.doors.queue.drop (j * n) }, links := { s.links with supervisor := y } }
      ∧ y = { x with
          queue := x.queue ++ (List.range j).flatMap fun i => batchRun ((s.doors.queue.drop (i * n)).take n)
          sending := x.sending || (decide (0 < j) && !x.held) }
      ∧ y.queue.length = x.queue.length + j * parts ∧ y.queue.length ≤ 8
      ∧ (t.doors.queue.length < n ∨ 8 < y.queue.length + parts)

/-- A record offered to the door event queue (R58, R60): it joins the end while the queue holds fewer than 64, and otherwise
QUEUE_OVERRUN is delivered and it is lost; the batch check follows either way, and does nothing while the notices are off. -/
def Claims.RecordsAreQueued : Prop :=
  ∀ (s t : State) (r : DoorRecord), t = { s with doors := { s.doors with queue := s.doors.queue ++ [r] } } →
    (s.doors.queue.length < 64 → s.offerRecord r = t.batchCheck ∧ (s.doors.notices = false → s.offerRecord r = t))
    ∧ (64 ≤ s.doors.queue.length → s.offerRecord r = (s.raise .queueOverrun).batchCheck
      ∧ (s.doors.notices = false → s.offerRecord r = s.raise .queueOverrun))

/-- The lamp groups as door activity in a zone leaves them (R132, R133): every enabled door-linked group of the zone with an
occupancy hold has its hold restarted, is LIT where it was VACANT, and recomputes; the others are as they were. -/
def Claims.activityGroups (s : State) (z : Fin 8) : Table 24 Group :=
  s.lighting.groups.mapIdx fun g x =>
    if x.state ≠ .disabled ∧ x.config.doorLinked = true ∧ x.config.zone = z ∧ x.config.hold ≠ 0 then
      Group.recompute { x with hold := some (60 * x.config.hold), state := if x.state = .vacant then .lit else x.state }
        (s.scene g) s.lighting.taken
    else x

/-- DOOR_OPENED (R43, R44): the channel's new state, its last closed interval and its counters; the record offered where
OPENED is captured (`RecordsAreQueued`); the door activity taken by the zone's door-linked groups; the opening credited to the
zone; the door's forecast consumed; its curtain's re-evaluation (`CurtainsFollowTheirDoors`), DEMANDED where it is wanted. From
there only grants move, as the requests and the curtain's demand move them (`GrantsOnly`), and without a zone not even the
lighting. That the settled change waits with 0 ticks for its row is the model's choice (assumption 1). -/
def Claims.DoorOpened : Prop :=
  ∀ (s q u : State) (d : Fin 32) (x y : Channel), s.power = .running → x = s.channel d → x.state = .closed →
    x.doorPending = some ⟨true, 0⟩ →
    y = { x with
      state := .opened, doorPending := none, interval := 0, lastEdge := some s.clock.weekSecond
      lastClosed := if x.lastEdge = none then none else some x.interval, openings := min 65535 (x.openings + 1) } →
    q = (if x.config.capture.getLsbD 0 = true then
        s.offerRecord ⟨d, .opened, s.clock.weekSecond, s.phase, if x.lastEdge = none then none else some x.interval⟩
      else s) →
    u = { s with
      doors := { s.doors with
        channels := s.doors.channels.set d y, queue := q.doors.queue
        forecasts := s.doors.forecasts.filter fun f => f.door ≠ d
        curtains := ((s.setChannel d y).reevaluateOf x.config.curtain).doors.curtains }
      links := q.links
      lighting := match x.config.zone with
        | some z => { s.lighting with groups := Claims.activityGroups s z }
        | none => s.lighting
      accounts := match x.config.zone with
        | some z => { s.accounts with current := { s.accounts.current with
            zones := s.accounts.current.zones.modify z fun a => { a with
              openings := min 4294967295 (a.openings + 1), openSeconds := min 4294967295 a.openSeconds } } }
        | none => s.accounts } →
    ∃ t, exec (.doorOpened d) s = .next t ∧ u.GrantsOnly t
      ∧ (∀ c, x.config.curtain = some c → x.config.configured = true →
          (s.doors.curtains.get c).config.configured = true →
          s.zoneMode (s.doors.curtains.get c).config.zone ≠ .off → (t.doors.curtains.get c).state = .demanded)
      ∧ (x.config.zone = none → t.lighting = s.lighting ∧ t.links = q.links ∧ t.lines.dimmers = s.lines.dimmers
          ∧ t.budget = { s.budget with total := t.budget.total })

/-- DOOR_CLOSED (R43, R45): the channel's new state and its last open interval, from OPEN or HELD; the record offered where
CLOSED is captured (`RecordsAreQueued`); its curtain's re-evaluation (`CurtainsFollowTheirDoors`), whose release may move
curtain grants and the total, and with them the latches of curtain lines; nothing credited, no forecast consumed, no door
activity. That the settled change waits with 0 ticks for its row is the model's choice (assumption 1). -/
def Claims.DoorClosed : Prop :=
  ∀ (s q u : State) (d : Fin 32) (x y : Channel), s.power = .running → x = s.channel d →
    x.state = .opened ∨ x.state = .held → x.doorPending = some ⟨false, 0⟩ →
    y = { x with
      state := .closed, doorPending := none, interval := 0, lastEdge := some s.clock.weekSecond
      lastOpen := if x.lastEdge = none then none else some x.interval } →
    q = (if x.config.capture.getLsbD 1 = true then
        s.offerRecord ⟨d, .closed, s.clock.weekSecond, s.phase, if x.lastEdge = none then none else some x.interval⟩
      else s) →
    u = { s with
      doors := { s.doors with
        channels := s.doors.channels.set d y, queue := q.doors.queue
        curtains := ((s.setChannel d y).reevaluateOf x.config.curtain).doors.curtains }
      links := q.links } →
    ∃ t, exec (.doorClosed d) s = .next t ∧ u.GrantsOnly t ∧ t.lighting = s.lighting ∧ t.links = q.links
      ∧ t.lines.dimmers = s.lines.dimmers ∧ t.budget = { s.budget with total := t.budget.total }

/-- DOOR_OPENED and DOOR_CLOSED, and how their records are queued. -/
def Obligations.DoorEdges : Prop :=
  Claims.RecordsAreQueued ∧ Claims.DoorOpened ∧ Claims.DoorClosed

/-- FIRST_SETTLEMENT (R41, R52). Of a door contact it is no edge: no record, no opening, no occupancy, no forecast consumed; a
door settled OPEN counts for its curtain at once, which re-evaluates and is DEMANDED where it is wanted, its demand taken by
the allocator, every other curtain standing whole. In every state at all, the other curtains keep configuration, state and
remaining run-on, lose no grant, and gain one only where the door's own curtain went to IDLE: its release is what the allocator
offers those that wait (R54, R123). Of a trailer sensor it sets the trailer state alone. That a settled change waits with 0
ticks for its row, where R42 makes it absent at the scan, is the model's choice (assumption 1). -/
def Claims.FirstSettlements : Prop :=
  (∀ (s u : State) (d : Fin 32) (x : Channel) (level : Bool), s.power = .running → x = s.channel d → x.state = .unused →
    x.doorPending = some ⟨level, 0⟩ →
    u = s.setChannel d { x with state := if level then .opened else .closed, doorPending := none, interval := 0 } →
    ∃ t, exec (.firstSettlement d .contact) s = .next t
      ∧ t = (if level = true then u.reevaluateOf x.config.curtain else u)
      ∧ t.channel d = { x with state := if level then .opened else .closed, doorPending := none, interval := 0 }
      ∧ (∀ e, e ≠ d → t.channel e = s.channel e)
      ∧ t.doors.queue = s.doors.queue ∧ t.doors.forecasts = s.doors.forecasts ∧ t.accounts = s.accounts
      ∧ t.lighting = s.lighting ∧ t.links = s.links
      ∧ (∀ c, level = true → x.config.curtain = some c → x.config.configured = true →
          (s.doors.curtains.get c).config.configured = true →
          s.zoneMode (s.doors.curtains.get c).config.zone ≠ .off → (t.doors.curtains.get c).state = .demanded
            ∧ ∀ b, b ≠ c → t.doors.curtains.get b = s.doors.curtains.get b)
      ∧ (∀ b, x.config.curtain ≠ some b →
          (t.doors.curtains.get b).config = (s.doors.curtains.get b).config
          ∧ (t.doors.curtains.get b).state = (s.doors.curtains.get b).state
          ∧ (t.doors.curtains.get b).remaining = (s.doors.curtains.get b).remaining
          ∧ ((s.doors.curtains.get b).granted = true → (t.doors.curtains.get b).granted = true))
      ∧ ((∀ c, x.config.curtain = some c → (s.doors.curtains.get c).state = .idle ∨ (t.doors.curtains.get c).state ≠ .idle) →
          ∀ b, x.config.curtain ≠ some b → t.doors.curtains.get b = s.doors.curtains.get b))
  ∧ ∀ (s : State) (d : Fin 32) (x : Channel) (level : Bool), s.power = .running → x = s.channel d →
    x.trailerSettled = false → x.trailerPending = some ⟨level, 0⟩ →
    exec (.firstSettlement d .trailer) s
      = .next (s.setChannel d { x with trailer := level, trailerSettled := true, trailerPending := none })

/-- SETTLED_TRAILER_EDGE (R46): the trailer state; the record offered where the edge's kind is captured (`RecordsAreQueued`),
the interval neither read nor reset; and, of an edge to PRESENT on a channel with a zone, the door activity taken by the zone's
door-linked groups, from where only grants move (`GrantsOnly`). Nothing else changes, and of an edge to ABSENT not even the
lighting. That the settled change waits with 0 ticks for its row is the model's choice (assumption 1). -/
def Claims.TrailerEdges : Prop :=
  ∀ (s q u : State) (d : Fin 32) (x : Channel) (level : Bool), s.power = .running → x = s.channel d →
    x.trailerSettled = true → x.trailerPending = some ⟨level, 0⟩ →
    q = (if x.config.capture.getLsbD (if level then 2 else 3) = true then
        s.offerRecord ⟨d, if level then .trailerArrived else .trailerLeft, s.clock.weekSecond, s.phase, none⟩
      else s) →
    u = { s with
      doors := { s.doors with
        channels := s.doors.channels.set d { x with trailer := level, trailerPending := none }, queue := q.doors.queue }
      links := q.links
      lighting := match level, x.config.zone with
        | true, some z => { s.lighting with groups := Claims.activityGroups s z }
        | _, _ => s.lighting } →
    ∃ t, exec (.settledTrailerEdge d) s = .next t ∧ u.GrantsOnly t
      ∧ (level = false ∨ x.config.zone = none → t = u)

/-- FIRST_SETTLEMENT and SETTLED_TRAILER_EDGE. -/
def Obligations.FirstSettlementsAndTrailerEdges : Prop :=
  Claims.FirstSettlements ∧ Claims.TrailerEdges

/-- DOOR_HELD (R43, R47, R48, R49, R180): the second boundary at which an OPEN door's count reaches the long-open limit of
the phase in force makes it HELD, offers its record whatever the capture selection (`RecordsAreQueued`), sets DOOR_HELD, and
counts that second in its tally, its zone's ring and the summary; nothing else of the part changes. That the boundary waits
in `owed` for its row is the model's choice (assumption 1). -/
def Obligations.DoorHeld : Prop :=
  ∀ (s q : State) (d : Fin 32) (x y : Channel) (n : Nat), s.power = .running → .door d ∈ s.owed → x = s.channel d →
    x.state = .opened → n = min 65535 (x.interval + 1) → (s.paramsOf s.phase).longOpen ≠ 0 →
    60 * (s.paramsOf s.phase).longOpen ≤ n →
    y = { x with
      state := .held, interval := n, openSeconds := min 4294967295 (x.openSeconds + 1), longest := max x.longest n } →
    q = s.offerRecord ⟨d, .held, s.clock.weekSecond, s.phase, none⟩ →
    exec (.doorHeld d) s = .next
      { s with
        owed := s.owed.erase (.door d)
        doors := { s.doors with
          channels := s.doors.channels.set d y, queue := q.doors.queue
          rings := match x.config.zone with
            | some z => s.doors.rings.modify z fun r => { r with current := min 65535 (r.current + 1) }
            | none => s.doors.rings }
        links := q.links.raise .doorHeld
        accounts := match x.config.zone with
          | some z => { s.accounts with current := { s.accounts.current with
              zones := s.accounts.current.zones.modify z fun a => { a with
                openings := min 4294967295 a.openings, openSeconds := min 4294967295 (a.openSeconds + 1) } } }
          | none => s.accounts }
    ∧ (q.links.raise .doorHeld).isSet .doorHeld = true

/-! ### Sensor Bus Master -/

/-- NODE_CONFIG and NODE_READ (R68, R69, R71). A node that becomes configured, changes its type or becomes unconfigured is
initialised, with no SENSOR_LOST; its own poll in progress is abandoned; a call of a mapped node that would leave it
configured with another type than its entries require is refused ACTIVE, and RANGE where both refusals hold, which is the model's
choice (assumption 66). That a round begun or ended by the call, with its
BUS_SILENT, comes before the answer is the model's choice (assumption 45). A round begins with a poll of the lowest configured
address and its mark clear, and with none configured polls nothing. The order in which NODE_READ lists the entries is the
model's choice (assumption 57). -/
def Obligations.NodeCalls : Prop :=
  (∀ (s u : State) (o : Origin) (a : NodeConfigArgs) (n : Fin 16) (x y : Node) (c : NodeConfig) (afresh : Bool),
    s.Admits .nodeConfig o → a.node.toNat = n.val + 1 → a.type ≠ some none → a.filter ≠ some none →
    x = s.sensors.nodes.get n →
    c = ⟨a.configured.getD x.config.configured, (a.type.bind id).getD x.config.type,
      (a.filter.bind id).getD x.config.filter⟩ →
    afresh = (c.configured != x.config.configured || (c.configured && c.type != x.config.type)) →
    y = (if afresh then ⟨c, none, if c.configured then .lost else .unconfigured, 0, 0⟩ else { x with config := c }) →
    u = State.setNode s n y →
    exec (.nodeConfig o (some a)) s = .next
      (if c.configured = true ∧
          ((c.type ≠ .temp ∧ ∃ z, s.sensors.map.temperature.get z = some n)
            ∨ (c.type ≠ .gas ∧ ∃ z, s.sensors.map.gas.get z = some n)
            ∨ (c.type ≠ .outdoor ∧ s.sensors.map.outdoor = some n)
            ∨ (c.type ≠ .daylight ∧ s.sensors.map.daylight = some n)) then
        s.answered .nodeConfig o ⟨.active, .bare⟩
      else match s.sensors.polled with
        | none => State.answered u.startRound .nodeConfig o ⟨.ok, .node y⟩
        | some m =>
          if m = n ∧ afresh = true then
            (if (∀ k, (u.sensors.nodes.get k).config.configured = false) then
              State.answered { u with sensors := { u.sensors with polled := none } } .nodeConfig o ⟨.ok, .node y⟩
            else ((u.unanswered o).pollAfter n).answer .nodeConfig o ⟨.ok, .node y⟩)
          else u.answered .nodeConfig o ⟨.ok, .node y⟩))
  ∧ (∀ (s : State) (o : Origin) (a : NodeConfigArgs), s.Admits .nodeConfig o →
    a.node.toNat = 0 ∨ 16 < a.node.toNat ∨ a.type = some none ∨ a.filter = some none →
    exec (.nodeConfig o (some a)) s = .next (s.answered .nodeConfig o ⟨.range, .bare⟩))
  ∧ (∀ (s : State) (o : Origin) (a : IndexArgs), s.Admits .nodeRead o →
    (∀ n : Fin 16, a.index.toNat = n.val + 1 → exec (.nodeRead o (some a)) s = .next (s.answered .nodeRead o
      ⟨.ok, .nodeRead (s.sensors.nodes.get n)
        (((indices 8).filter fun z => s.sensors.map.temperature.get z = some n).map .temperature
          ++ ((indices 8).filter fun z => s.sensors.map.gas.get z = some n).map .gas
          ++ (if s.sensors.map.outdoor = some n then [.outdoor] else [])
          ++ (if s.sensors.map.daylight = some n then [.daylight] else []))⟩))
    ∧ (a.index.toNat = 0 ∨ 16 < a.index.toNat →
      exec (.nodeRead o (some a)) s = .next (s.answered .nodeRead o ⟨.range, .bare⟩)))
  ∧ ∀ s : State,
    (∀ m, (s.sensors.nodes.get m).config.configured = true →
      (∀ k, k < m → (s.sensors.nodes.get k).config.configured = false) →
      s.startRound = { s with sensors := { s.sensors with polled := some m, roundMark := false } })
    ∧ ((∀ m, (s.sensors.nodes.get m).config.configured = false) →
      s.startRound = { s with sensors := { s.sensors with polled := none, roundMark := false } })

/-- REPLY_RECEIVED and POLL_WAIT_END (R70, R72, R73): the table of outcomes for the node whose poll is in progress, its next
poll following at once. That a reply, or the end of a wait, counts as nothing with no poll in progress is the model's
choice (assumption 23), as is that a reply an abandoned poll drew is judged as the next poll's (assumption 44); the widths and
the bit order of the CRC-8 are taken from outside the manual (assumption 43). -/
def Claims.PollOutcomes : Prop :=
  (∀ (s : State) (r : ReplyFrame) (n : Fin 16) (x y : Node) (fits right : Bool), s.power = .running →
    s.sensors.polled = some n → x = s.sensors.nodes.get n →
    fits = (r.address.toNat == n.val + 1 && r.type == typeCode x.config.type) →
    right = (r.check == crc8 [r.address, r.type, (r.value >>> 8).setWidth 8, r.value.setWidth 8]) →
    y = (if fits = true ∧ right = true then
        { x with value := some (convertReading x.config.type r.value), status := .fresh, age := 0, failures := 0 }
      else if fits = true ∧ x.config.filter = .accept then
        { x with value := some (convertReading x.config.type r.value), status := .suspect, age := 0
                 failures := min 255 (x.failures + 1) }
      else { x with failures := min 255 (x.failures + 1) }) →
    exec (.replyReceived r) s = .next (State.pollAfter
      { s with sensors := { s.sensors with
          nodes := s.sensors.nodes.set n y, roundMark := s.sensors.roundMark || (fits && right) } } n))
  ∧ (∀ (s : State) (n : Fin 16) (x : Node), s.power = .running → s.sensors.polled = some n →
    x = s.sensors.nodes.get n →
    exec .pollWaitEnd s = .next ((s.setNode n { x with failures := min 255 (x.failures + 1) }).pollAfter n))
  ∧ ∀ (s : State) (r : ReplyFrame), s.power = .running → s.sensors.polled = none →
    exec (.replyReceived r) s = .next s ∧ exec .pollWaitEnd s = .next s

/-- The round of polls (R71, R76): the next poll goes to the lowest configured address above the one just polled; where there
is none the round is complete, BUS_SILENT is set where the round mark is clear, and a new round begins with the lowest
configured address and a clear mark; nothing else of the part changes. -/
def Claims.RoundsOfPolls : Prop :=
  ∀ (s : State) (n : Fin 16),
    (∀ m, n < m → (s.sensors.nodes.get m).config.configured = true →
      (∀ k, n < k → k < m → (s.sensors.nodes.get k).config.configured = false) →
      s.pollAfter n = { s with sensors := { s.sensors with polled := some m } })
    ∧ ((∀ m, n < m → (s.sensors.nodes.get m).config.configured = false) →
      (∀ m, (s.sensors.nodes.get m).config.configured = true →
        (∀ k, k < m → (s.sensors.nodes.get k).config.configured = false) →
        (s.pollAfter n).sensors.polled = some m
        ∧ s.pollAfter n = { s with
            sensors := { s.sensors with polled := some m, roundMark := false }
            links := if s.sensors.roundMark = true then s.links else s.links.raise .busSilent })
      ∧ (s.pollAfter n).sensors.roundMark = false ∧ (s.pollAfter n).sensors.nodes = s.sensors.nodes
      ∧ (s.sensors.roundMark = false → (s.pollAfter n).links.isSet .busSilent = true)
      ∧ (s.sensors.roundMark = true → (s.pollAfter n).links = s.links))

/-- REPLY_RECEIVED and POLL_WAIT_END, and the rounds of polls they carry on. -/
def Obligations.PollsAndRounds : Prop :=
  Claims.PollOutcomes ∧ Claims.RoundsOfPolls

/-- Conversion of an accepted reading (R73): the code of a temperature is the nearest code, clamped into 0..255; gas is
clamped into 0..1000; lux is stored as it is. The worked conversions of the manual. -/
def Obligations.ReadingsConverted : Prop :=
  (∀ v : Half, (convertReading .temp v : Int) = max 0 (min 255 ((v.toInt + 402) / 5))
    ∧ convertReading .outdoor v = convertReading .temp v ∧ convertReading .gas v = min 1000 v.toNat
    ∧ convertReading .daylight v = v.toNat)
  ∧ convertReading .temp 183 = 117 ∧ convertReading .temp 187 = 117 ∧ convertReading .temp 188 = 118
  ∧ convertReading .temp 0 = 80 ∧ convertReading .temp (-120) = 56 ∧ convertReading .outdoor (-250) = 30
  ∧ convertReading .outdoor (-405) = 0 ∧ convertReading .temp 880 = 255
  ∧ convertReading .gas 1450 = 1000 ∧ convertReading .gas 46 = 46

/-- NODE_HELD and NODE_LOST (R74, R75): the second boundary at which a configured node's age reaches a limit. -/
def Obligations.NodesGrowStale : Prop :=
  ∀ (s : State) (n : Fin 16) (x : Node) (age : Nat), s.power = .running → .node n ∈ s.owed → x = s.sensors.nodes.get n →
    x.config.configured = true → age = min 65535 (x.age + 1) →
    (x.status = .fresh ∨ x.status = .suspect → s.sensors.stale ≤ age → age < s.sensors.degrade →
      exec (.nodeHeld n) s
        = .next (State.setNode { s with owed := s.owed.erase (.node n) } n { x with age := age, status := .held }))
    ∧ (x.status = .fresh ∨ x.status = .suspect ∨ x.status = .held → s.sensors.degrade ≤ age →
      exec (.nodeLost n) s
        = .next ((State.setNode { s with owed := s.owed.erase (.node n) } n
            { x with age := age, status := .lost }).raise .sensorLost))

/-- SOURCE_MAP_WRITE (R78, R79): the whole call refused RANGE where one item names a zone or an entry that does not exist, a
node outside 1..16, or a configured node of another type; otherwise each entry takes the last item that names it, and an
entry no item names is as it was. -/
def Obligations.SourceMapWrite : Prop :=
  (∀ (s : State) (o : Origin) (a : SourceMapArgs), s.Admits .sourceMapWrite o →
    (∃ i ∈ a.items, i.entry = .noSuchEntry
      ∨ (∃ z, (i.entry = .temperature z ∨ i.entry = .gas z) ∧ 7 < z.toNat)
      ∨ (∃ b, i.node = some b ∧ (b.toNat = 0 ∨ 16 < b.toNat))
      ∨ (∃ n : Fin 16, ∃ b, i.node = some b ∧ b.toNat = n.val + 1
          ∧ (s.sensors.nodes.get n).config.configured = true
          ∧ requiredType i.entry ≠ some (s.sensors.nodes.get n).config.type)) →
    exec (.sourceMapWrite o (some a)) s = .next (s.answered .sourceMapWrite o ⟨.range, .bare⟩))
  ∧ ∀ (s : State) (o : Origin) (a : SourceMapArgs), s.Admits .sourceMapWrite o →
    (∀ i ∈ a.items, i.entry ≠ .noSuchEntry ∧ (∀ z, i.entry = .temperature z ∨ i.entry = .gas z → z.toNat ≤ 7)
      ∧ (∀ b, i.node = some b → 1 ≤ b.toNat ∧ b.toNat ≤ 16)
      ∧ (∀ n : Fin 16, ∀ b, i.node = some b → b.toNat = n.val + 1 →
          (s.sensors.nodes.get n).config.configured = true →
          requiredType i.entry = some (s.sensors.nodes.get n).config.type)) →
    ∃ m, exec (.sourceMapWrite o (some a)) s
        = .next (State.answered { s with sensors := { s.sensors with map := m } } .sourceMapWrite o ⟨.ok, .sourceMap m⟩)
      ∧ (∀ before i after, a.items = before ++ i :: after → (∀ j ∈ after, j.entry ≠ i.entry) →
          (∀ z : Fin 8, i.entry = .temperature (BitVec.ofNat 8 z.val) →
            (m.temperature.get z).map (fun n => n.val + 1) = i.node.map BitVec.toNat)
          ∧ (∀ z : Fin 8, i.entry = .gas (BitVec.ofNat 8 z.val) →
            (m.gas.get z).map (fun n => n.val + 1) = i.node.map BitVec.toNat)
          ∧ (i.entry = .outdoor → m.outdoor.map (fun n => n.val + 1) = i.node.map BitVec.toNat)
          ∧ (i.entry = .daylight → m.daylight.map (fun n => n.val + 1) = i.node.map BitVec.toNat))
      ∧ (∀ z : Fin 8, (∀ i ∈ a.items, i.entry ≠ .temperature (BitVec.ofNat 8 z.val)) →
          m.temperature.get z = s.sensors.map.temperature.get z)
      ∧ (∀ z : Fin 8, (∀ i ∈ a.items, i.entry ≠ .gas (BitVec.ofNat 8 z.val)) → m.gas.get z = s.sensors.map.gas.get z)
      ∧ ((∀ i ∈ a.items, i.entry ≠ .outdoor) → m.outdoor = s.sensors.map.outdoor)
      ∧ ((∀ i ∈ a.items, i.entry ≠ .daylight) → m.daylight = s.sensors.map.daylight)
      ∧ (a.items = [] → m = s.sensors.map)

/-- SENSOR_LIMITS (R74, R75, R77): each limit brought into its range, a degrade limit not above the stale limit becoming the
stale limit plus 1. The call always completes: with neither limit changed no node changes (`u`); with one changed every
configured node's age is compared at once, without ageing it (`v`), and SENSOR_LOST is raised where a node became LOST (`w`);
then it is answered with the three settings, CLAMPED when a value was changed. That a stale limit above 255 can be commanded,
though a frame's one byte carries none, and that the answer follows the notice of SENSOR_LOST are the model's choices (assumptions
52, 45). -/
def Claims.SensorLimits : Prop :=
  ∀ (s u v w : State) (o : Origin) (a : SensorLimitsArgs) (stale written degrade assumed : Nat) (st : Status),
    s.Admits .sensorLimits o →
    stale = (match a.stale with | some v => max 5 (min 255 v.toNat) | none => s.sensors.stale) →
    written = (match a.degrade with | some v => max 10 (min 3600 v.toNat) | none => s.sensors.degrade) →
    degrade = (if written ≤ stale then stale + 1 else written) →
    assumed = (match a.assumed with | some v => v.toNat | none => s.sensors.assumed) →
    st = (if (∃ v, a.stale = some v ∧ v.toNat ≠ stale) ∨ (∃ v, a.degrade = some v ∧ v.toNat ≠ written)
        ∨ written ≠ degrade then .clamped else .ok) →
    u = { s with sensors := { s.sensors with stale := stale, degrade := degrade, assumed := assumed } } →
    v = { u with sensors := { u.sensors with nodes := s.sensors.nodes.map fun x =>
      if x.config.configured = true then
        { x with status := match x.status with
          | .fresh | .suspect => if degrade ≤ x.age then .lost else if stale ≤ x.age then .held else x.status
          | .held => if degrade ≤ x.age then .lost else .held
          | .lost => .lost
          | .unconfigured => .unconfigured }
      else x } } →
    w = (if ∃ n, (v.sensors.nodes.get n).status = .lost ∧ (s.sensors.nodes.get n).status ≠ .lost
      then v.raise .sensorLost else v) →
    exec (.sensorLimits o (some a)) s = .next
      (State.answered (if stale = s.sensors.stale ∧ degrade = s.sensors.degrade then u else w) .sensorLimits o
        ⟨st, .sensorLimits stale degrade assumed⟩)

/-- A source reading (R80): LOST with no value for an entry that is none or names an unconfigured or LOST node, otherwise the
node's status and value; the outdoor source with the assumed code while it is LOST. -/
def Claims.SourceReadings : Prop :=
  ∀ m : Sensors,
    m.reading none = ⟨.lost, none⟩
    ∧ (∀ n, (m.nodes.get n).config.configured = false ∨ (m.nodes.get n).status = .lost →
      m.reading (some n) = ⟨.lost, none⟩)
    ∧ (∀ n v, (m.nodes.get n).config.configured = true →
      (m.nodes.get n).status = .fresh ∨ (m.nodes.get n).status = .suspect ∨ (m.nodes.get n).status = .held →
      (m.nodes.get n).value = some v → m.reading (some n) = ⟨(m.nodes.get n).status, some v⟩)
    ∧ ((m.reading m.map.outdoor).status = .lost → m.outdoorReading = ⟨.lost, some m.assumed⟩)
    ∧ ((m.reading m.map.outdoor).status ≠ .lost → m.outdoorReading = m.reading m.map.outdoor)

/-- SENSOR_LIMITS, and the reading and status of a mapped source. -/
def Obligations.SensorLimitsAndSources : Prop :=
  Claims.SensorLimits ∧ Claims.SourceReadings

/-! ### Zone Climate Engine -/

/-- ZONE_CONFIG (R25, R82, R89): the cases of RANGE and of ACTIVE, RANGE where both hold, which is the model's choice
(assumption 66); otherwise every value brought into range, the manual counts
clamped into the installed counts, and after the answer the setpoints clamped where the limits changed, and a control
cycle. -/
def Obligations.ZoneConfigCall : Prop :=
  (∀ (s u : State) (o : Origin) (a : ZoneConfigArgs) (z : Fin 8) (m : StartMode) (x : Zone) (c : ZoneConfig) (st : Status),
    s.Admits .zoneConfig o → a.zone.toNat = z.val → a.startMode = some m →
    a.heaterStages.toNat ≤ 4 → a.fanStages.toNat ≤ 3 → a.setpointLow.toNat ≤ a.setpointHigh.toNat →
    a.bandLow.toNat ≤ a.bandHigh.toNat → x = s.climate.zones.get z →
    c = { heaterStages := a.heaterStages.toNat, fanStages := a.fanStages.toNat, step := max 1 (min 64 a.step.toNat)
          hysteresis := min (max 1 (min 64 a.step.toNat)) a.hysteresis.toNat
          doorCoefficient := a.doorCoefficient.toNat, makeUp := min 31 a.makeUp.toNat, boost := min 20 a.boost.toNat
          setpointLow := a.setpointLow.toNat, setpointHigh := a.setpointHigh.toNat
          bandLow := max a.setpointLow.toNat (min a.setpointHigh.toNat a.bandLow.toNat)
          bandHigh := max a.setpointLow.toNat (min a.setpointHigh.toNat a.bandHigh.toNat)
          trailersPerStage := max 1 (min 8 a.trailersPerStage.toNat), startMode := m } →
    st = (if c.step = a.step.toNat ∧ c.hysteresis = a.hysteresis.toNat ∧ c.makeUp = a.makeUp.toNat
        ∧ c.boost = a.boost.toNat ∧ c.bandLow = a.bandLow.toNat ∧ c.bandHigh = a.bandHigh.toNat
        ∧ c.trailersPerStage = a.trailersPerStage.toNat then .ok else .clamped) →
    u = State.answered (s.setZone z { x with
        config := c, manualHeat := min x.manualHeat c.heaterStages, manualFans := min x.manualFans c.fanStages })
      .zoneConfig o ⟨st, .zoneConfig c⟩ →
    exec (.zoneConfig o (some a)) s = .next
      (if (x.mode = .off ∨ x.mode = .manual)
          ∧ (s.budget.zones.get z).heat ≤ c.heaterStages ∧ (s.budget.demandOf z).heat ≤ c.heaterStages
          ∧ (s.budget.zones.get z).fans ≤ c.fanStages ∧ (s.budget.demandOf z).fans ≤ c.fanStages
          ∧ (s.budget.demandOf z).gasFloor ≤ c.fanStages then
        (if x.config.setpointLow = c.setpointLow ∧ x.config.setpointHigh = c.setpointHigh then u.cycle
        else (u.clampSetpoints z).cycle)
      else s.answered .zoneConfig o ⟨.active, .bare⟩))
  ∧ (∀ (s : State) (o : Origin) (a : ZoneConfigArgs), s.Admits .zoneConfig o →
    7 < a.zone.toNat ∨ a.startMode = none ∨ 4 < a.heaterStages.toNat ∨ 3 < a.fanStages.toNat
      ∨ a.setpointHigh.toNat < a.setpointLow.toNat ∨ a.bandHigh.toNat < a.bandLow.toNat →
    exec (.zoneConfig o (some a)) s = .next (s.answered .zoneConfig o ⟨.range, .bare⟩))
  ∧ ∀ (s : State) (z y : Fin 8) (p : Phase), ((s.clampSetpoints z).paramsOf p).setpoints.get y
      = if y = z then max (s.climate.zones.get z).config.setpointLow
            (min (s.climate.zones.get z).config.setpointHigh ((s.paramsOf p).setpoints.get z))
        else (s.paramsOf p).setpoints.get y

/-- What a mode event does (R52, R66, R86, R114, R125). In the Door Unit: a zone that is not AUTO loses exactly the forecasts whose
door belongs to it, and every curtain of the zone re-evaluates (`CurtainsFollowTheirDoors`), no other changing its state. In the
Load Allocator: a zone that is OFF is marked OFF in the last demand set and releases its stages at once. Nothing else of the
part but grants moves. -/
def Claims.ModeEvents : Prop :=
  ∀ (s t : State) (z : Fin 8), t = s.modeEvent z →
    s.CycleOnly t ∧ t.climate = s.climate ∧ t.lighting = s.lighting ∧ t.links = s.links
    ∧ t.budget.groups = s.budget.groups ∧ t.budget.passes = s.budget.passes
    ∧ t.doors.forecasts = (if s.zoneMode z = .auto then s.doors.forecasts
        else s.doors.forecasts.filter fun f => (s.channel f.door).config.zone ≠ some z)
    ∧ (∀ c x, x = s.doors.curtains.get c →
        (x.config.zone = z → ∀ y, y = (s.reevaluate c).doors.curtains.get c →
          (t.doors.curtains.get c).state = y.state ∧ (t.doors.curtains.get c).remaining = y.remaining)
        ∧ (x.config.zone ≠ z →
          (t.doors.curtains.get c).state = x.state ∧ (t.doors.curtains.get c).remaining = x.remaining))
    ∧ (s.zoneMode z = .off → t.budget.demandOf z = ⟨.off, none, 0, 0, 0⟩
      ∧ (t.budget.zones.get z).heat = 0 ∧ (t.budget.zones.get z).fans = 0
      ∧ ∀ i : Fin 4, i.val < (s.budget.zones.get z).heat → (t.budget.zones.get z).times.get i = 0)
    ∧ (s.zoneMode z ≠ .off → t.budget.zones = s.budget.zones ∧ t.budget.demand = s.budget.demand)
    ∧ ∀ y, y ≠ z → t.budget.zones.get y = s.budget.zones.get y ∧ t.budget.demandOf y = s.budget.demandOf y

/-- ZONE_MODE and ZONE_MANUAL (R84, R86, R87): the mode asked already in force, or AUTO asked of a DEGRADED zone, changes
nothing; any other change is answered with the mode set, then hands the mode event and starts a cycle; ZONE_MANUAL stores
counts limited by the installed stages in every mode and starts no cycle. That the mode event comes after the answer, and
which block takes it first, is the model's choice (assumptions 6, 48). -/
def Claims.ZoneModeAndManualCalls : Prop :=
  (∀ (s : State) (o : Origin) (a : ZoneModeArgs) (z : Fin 8) (m : ZoneMode) (x : Zone), s.Admits .zoneMode o →
    a.zone.toNat = z.val → a.mode = some m → m ≠ .degraded → x = s.climate.zones.get z →
    exec (.zoneMode o (some a)) s = .next
      (if x.mode = m ∨ (x.mode = .degraded ∧ m = .auto) then s.answered .zoneMode o ⟨.ok, .zoneMode x.mode⟩
      else ((State.answered (s.setZone z { x with mode := m }) .zoneMode o ⟨.ok, .zoneMode m⟩).modeEvent z).cycle))
  ∧ (∀ (s : State) (o : Origin) (a : ZoneModeArgs), s.Admits .zoneMode o →
    7 < a.zone.toNat ∨ a.mode = none ∨ a.mode = some .degraded →
    exec (.zoneMode o (some a)) s = .next (s.answered .zoneMode o ⟨.range, .bare⟩))
  ∧ (∀ (s : State) (o : Origin) (a : ZoneManualArgs) (z : Fin 8) (x : Zone) (h f : Nat), s.Admits .zoneManual o →
    a.zone.toNat = z.val → x = s.climate.zones.get z → h = min x.config.heaterStages a.heat.toNat →
    f = min x.config.fanStages a.fans.toNat →
    exec (.zoneManual o (some a)) s = .next
      (State.answered (s.setZone z { x with manualHeat := h, manualFans := f }) .zoneManual o
        ⟨if h = a.heat.toNat ∧ f = a.fans.toNat then .ok else .clamped, .zoneManual h f⟩))
  ∧ ∀ (s : State) (o : Origin) (a : ZoneManualArgs), s.Admits .zoneManual o → 7 < a.zone.toNat →
    exec (.zoneManual o (some a)) s = .next (s.answered .zoneManual o ⟨.range, .bare⟩)

/-- ZONE_MODE and ZONE_MANUAL, and what a mode event does. -/
def Obligations.ZoneModeAndManual : Prop :=
  Claims.ZoneModeAndManualCalls ∧ Claims.ModeEvents

/-- CYCLE_PERIOD, CLIMATE_SETTINGS and ZONE_READ (R88, R96, R102, R105). The thresholds end up rising; the example of R96. -/
def Obligations.ClimateSettingsAndReads : Prop :=
  (∀ (s : State) (o : Origin) (a : CyclePeriodArgs) (n : Nat), s.Admits .cyclePeriod o →
    n = (match a.setting with | some v => min 59 v.toNat | none => s.climate.setting) →
    exec (.cyclePeriod o (some a)) s
      = .next (State.answered { s with climate := { s.climate with setting := n } } .cyclePeriod o
          ⟨if ∃ v, a.setting = some v ∧ 59 < v.toNat then .clamped else .ok, .cycle n s.climate.timer⟩))
  ∧ (∀ (s : State) (o : Origin) (a : ClimateSettingsArgs) (w1 w2 w3 wd g1 g2 g3 d : Nat), s.Admits .climateSettings o →
    w1 = (match a.g1 with | some v => v.toNat | none => s.climate.g1) →
    w2 = (match a.g2 with | some v => v.toNat | none => s.climate.g2) →
    w3 = (match a.g3 with | some v => v.toNat | none => s.climate.g3) →
    wd = (match a.deviationLimit with | some v => v.toNat | none => s.climate.deviationLimit) →
    g1 = min 998 w1 → g2 = (if min 999 w2 ≤ g1 then g1 + 1 else min 999 w2) →
    g3 = (if min 1000 w3 ≤ g2 then g2 + 1 else min 1000 w3) → d = min 2040 wd →
    exec (.climateSettings o (some a)) s
      = .next (State.answered
          { s with climate := { s.climate with g1 := g1, g2 := g2, g3 := g3, deviationLimit := d } } .climateSettings o
          ⟨if g1 = w1 ∧ g2 = w2 ∧ g3 = w3 ∧ d = wd then .ok else .clamped, .climate g1 g2 g3 d⟩))
  ∧ ∀ (s : State) (o : Origin) (a : IndexArgs), s.Admits .zoneRead o →
    (∀ z : Fin 8, a.index.toNat = z.val → exec (.zoneRead o (some a)) s = .next (s.answered .zoneRead o ⟨.ok, .zone
      { zone := s.climate.zones.get z, deviation := s.climate.deviation, deficit := s.climate.deficit
        timer := s.climate.timer, period := s.climate.setting + 1, cycles := s.climate.cycles }⟩))
    ∧ (7 < a.index.toNat → exec (.zoneRead o (some a)) s = .next (s.answered .zoneRead o ⟨.range, .bare⟩))

/-- The inputs of a cycle (R49, R50, R80, R90), as they stand at its start: the phase in force with its setpoint, vent minimum and
fallback stages, the WORK setpoint, the readings of the zone's mapped temperature and gas sources and of the outdoor source, the
zone open time, the trailer count and forecast mark, the fan stages granted, and the gas thresholds. A reading's value is the
code, or the ppm, the cycle reckons with. -/
def Claims.ZoneInputsTaken : Prop :=
  ∀ (s : State) (z : Fin 8) (i : ZoneInputs) (p : PhaseParams), i = s.zoneInputs z →
    p = s.calendar.params.get (phaseIndex s.calendar.record.phase) →
    i.phase = s.calendar.record.phase ∧ i.setpoint = p.setpoints.get z
    ∧ i.setpointWork = (s.calendar.params.get (phaseIndex .work)).setpoints.get z
    ∧ i.vent = p.vent ∧ i.fallback = p.fallback
    ∧ i.temperature = s.sensors.reading (s.sensors.map.temperature.get z) ∧ i.outdoor = s.sensors.outdoorReading
    ∧ i.gas = s.sensors.reading (s.sensors.map.gas.get z)
    ∧ i.openTime = (s.doors.rings.get z).completed.rows.sum
    ∧ i.trailers = ((indices 32).filter fun d => (s.channel d).config.configured
        ∧ (s.channel d).config.zone = some z ∧ (s.channel d).trailer).length
    ∧ (i.forecast = true ↔ ∃ f ∈ s.doors.forecasts, (s.channel f.door).config.zone = some z)
    ∧ i.granted = (s.budget.zones.get z).fans
    ∧ i.g1 = s.climate.g1 ∧ i.g2 = s.climate.g2 ∧ i.g3 = s.climate.g3
    ∧ (∀ v, i.temperature.value = some v → i.code = v) ∧ (∀ v, i.outdoor.value = some v → i.outdoorCode = v)
    ∧ (∀ v, i.gas.value = some v → i.ppm = v)

/-- CYCLE_TIMER_EXPIRY (R88, R91, R104): the cycle replaces every zone's results from the inputs as they stand at its start,
sets the timer to 0, counts itself, and hands the allocator the demand set of its results; of the rest of the part it
touches what its mode events and its pass may touch (`CycleOnly`). In full (R85, R86, R91, R102, R115): the results, then
ZONE_DEGRADED where a zone entered DEGRADED and DEVIATION where the deviation calls for it, then the mode event of each zone
whose mode changed (`ModeEvents`; that they go in ascending zone number is the model's choice, assumption 48), then the demand
set with its pass (`PassesAreHanded`). A flag clear before the cycle is set after it only with its cause: ZONE_DEGRADED where
a zone went from AUTO to DEGRADED, DEVIATION with its condition, OVERCAP where the pass finds the reserved total above the
cap or a group's request, made when its granted level changed, names another floor than the group had requested. -/
def Claims.CycleRuns : Prop :=
  (∀ s : State, s.power = .running → .cycle ∈ s.owed → s.climate.setting ≤ s.climate.timer →
    ∃ t, exec .cycleTimerExpiry s = .next t ∧ State.CycleOnly { s with owed := s.owed.erase .cycle } t
      ∧ t.climate = s.cycledClimate ∧ t.climate.timer = 0 ∧ t.climate.cycles = min 4294967295 (s.climate.cycles + 1)
      ∧ (∀ z, t.climate.zones.get z = (s.climate.zones.get z).cycle (s.zoneInputs z))
      ∧ (∃ d, t.budget.demand = some d ∧ ∀ z, d.get z =
          { mode := (s.zoneInputs z).mode (s.zoneMode z)
            effective := (t.climate.zones.get z).results.effective, heat := (t.climate.zones.get z).results.heat
            fans := (t.climate.zones.get z).results.fans, gasFloor := (t.climate.zones.get z).results.gasFloor })
      ∧ ((∃ z, s.zoneMode z ≠ .degraded ∧ t.zoneMode z = .degraded) → t.links.isSet .zoneDegraded = true)
      ∧ (s.climate.deviationLimit ≠ 0 → s.climate.deviationLimit ≤ t.climate.deviation → s.phase ≠ .setback →
          t.links.isSet .deviation = true))
  ∧ ∀ s a b c m v t : State, s.power = .running → .cycle ∈ s.owed → s.climate.setting ≤ s.climate.timer →
    a = { s with owed := s.owed.erase .cycle, climate := s.cycledClimate } →
    b = (if ∃ z, s.zoneMode z = .auto ∧ a.zoneMode z = .degraded then a.raise .zoneDegraded else a) →
    c = (if s.climate.deviationLimit ≠ 0 ∧ s.climate.deviationLimit ≤ a.climate.deviation ∧ s.phase ≠ .setback
      then b.raise .deviation else b) →
    m = (indices 8).foldl (fun u z => if a.zoneMode z = s.zoneMode z then u else u.modeEvent z) c →
    v = { m with budget := { m.budget with demand := some (a.climate.zones.map fun x =>
      ⟨x.mode, x.results.effective, x.results.heat, x.results.fans, x.results.gasFloor⟩) } } →
    t = v.passAndHand →
    exec .cycleTimerExpiry s = .next t
    ∧ ∀ f, s.links.isSet f = false → t.links.isSet f = true →
        f = .zoneDegraded ∧ (∃ z, s.zoneMode z = .auto ∧ t.zoneMode z = .degraded)
        ∨ f = .deviation ∧ s.climate.deviationLimit ≠ 0 ∧ s.climate.deviationLimit ≤ t.climate.deviation
          ∧ s.phase ≠ .setback
        ∨ f = .overcap ∧ (v.budget.capInForce < v.pass.budget.reserved
          ∨ ∃ q ∈ (v.pass.takeGrants v).2, q.floor ≠ (v.budget.groups.get q.group).floorRequest)

/-- CYCLE_TIMER_EXPIRY, and the inputs of a cycle. -/
def Obligations.CycleTimerExpiry : Prop :=
  Claims.CycleRuns ∧ Claims.ZoneInputsTaken

/-- A zone's results in a cycle (R81, R83, R85, R92, R93, R97 to R101, R105): its mode settled from its temperature and gas
sources, and its heat request, fan request, gas floor, effective error, deviation share and working figures by that mode. The
working figures are the inputs the cycle took, the error with the temperature difference, door loss, make-up, boost and plain
request formed from it, and the two stage counts. A zone whose temperature is lost forms none of those that come of the error,
a MANUAL zone no trailer stages either, and an OFF zone no figure at all; which of the figures a zone that is not AUTO reports
is deduced (assumption 20). -/
def Claims.ZoneResultsByMode : Prop :=
  ∀ (x y : Zone) (i : ZoneInputs) (vgas vtrl loss makeUp boost : Nat) (e : Int) (w : Working), y = x.cycle i →
    vgas = (if i.gas.status ≠ .lost then
        (if i.ppm < i.g1 then 0 else if i.ppm < i.g2 then 1 else if i.ppm < i.g3 then 2 else 3)
      else if i.phase = .setback ∨ i.phase = .preheat then 0 else 1) →
    vtrl = (if i.phase = .work ∨ i.phase = .changeover then
        min 3 ((i.trailers + (x.config.trailersPerStage - 1)) / x.config.trailersPerStage) else 0) →
    loss = min 255 (i.openTime * x.config.doorCoefficient * min 80 (i.code - i.outdoorCode) / 1048576) →
    makeUp = (if i.outdoorCode < i.code then i.granted * x.config.makeUp else 0) →
    boost = (if y.mode = .auto ∧ i.forecast = true then x.config.boost else 0) →
    e = max (-255) (min 255 ((i.setpoint : Int) - (i.code : Int) + (loss : Int) + (makeUp : Int) + (boost : Int))) →
    w = {
      setpoint := some i.setpoint, setpointWork := some i.setpointWork, temperature := some i.temperature
      outdoor := some i.outdoor, gas := some i.gas, openTime := some i.openTime, trailers := some i.trailers
      forecast := some i.forecast, grantedFans := some i.granted, error := some ((i.setpoint : Int) - (i.code : Int))
      deltaT := some (min 80 (i.code - i.outdoorCode)), doorLoss := some loss, makeUp := some makeUp
      boost := some boost, plainRequest := some (x.config.plain e), gasStages := some vgas
      trailerStages := some vtrl } →
    y.config = x.config ∧ y.manualHeat = x.manualHeat ∧ y.manualFans = x.manualFans
    ∧ y.mode = (if x.mode = .auto ∨ x.mode = .degraded then
        (if i.temperature.status ≠ .lost ∧ i.gas.status ≠ .lost then .auto else .degraded) else x.mode)
    ∧ (y.mode = .off → y.results = ⟨none, 0, 0, 0, none, .absent⟩)
    ∧ (y.mode = .manual → y.results.effective = none ∧ y.results.heat = min x.manualHeat x.config.heaterStages
        ∧ y.results.fans = min x.manualFans x.config.fanStages ∧ y.results.gasFloor = min x.config.fanStages vgas
        ∧ y.results.share = none
        ∧ y.results.working = { w with
            error := none, deltaT := none, doorLoss := none, makeUp := none, boost := none, plainRequest := none
            trailerStages := none })
    ∧ (y.mode = .auto ∨ y.mode = .degraded →
        y.results.fans = min x.config.fanStages (max vgas (max vtrl i.vent))
        ∧ y.results.gasFloor = min x.config.fanStages vgas ∧ y.results.gasFloor ≤ y.results.fans)
    ∧ (y.mode = .auto ∨ y.mode = .degraded ∧ i.temperature.status ≠ .lost →
        y.results.effective = some e ∧ y.results.heat = x.config.request x.results.heat e ∧ y.results.working = w)
    ∧ (y.mode = .degraded → i.temperature.status = .lost →
        y.results.effective = none ∧ y.results.heat = min x.config.heaterStages i.fallback
        ∧ y.results.working = { w with
            error := none, deltaT := none, doorLoss := none, makeUp := none, boost := none, plainRequest := none })
    ∧ y.results.share = (if y.mode = .auto then some ((i.setpoint : Int) - (i.code : Int)).natAbs else none)

/-- The heat request (R94): the plain request is the largest installed stage whose threshold the effective error reaches; a
request that would fall keeps the largest held stage whose release point the error is still above; the request never
exceeds the installed stages, and a top threshold above 255 is never reached. -/
def Obligations.HeatRequestWithHysteresis : Prop :=
  ∀ (c : ZoneConfig) (previous plain h : Nat) (e : Int), 1 ≤ c.step → plain = c.plain e → h = c.request previous e →
    plain ≤ c.heaterStages ∧ h ≤ c.heaterStages
    ∧ (1 ≤ plain → ((plain * c.step : Nat) : Int) ≤ e)
    ∧ (∀ i, plain < i → i ≤ c.heaterStages → e < ((i * c.step : Nat) : Int))
    ∧ (e < (c.step : Int) ∨ c.heaterStages = 0 → plain = 0)
    ∧ (previous ≤ plain → h = plain)
    ∧ (plain < previous →
        (h = plain ∨ plain < h ∧ h ≤ min previous c.heaterStages
          ∧ ((h * c.step : Nat) : Int) - (c.hysteresis : Int) < e)
        ∧ ∀ j, h < j → j ≤ min previous c.heaterStages → e ≤ ((j * c.step : Nat) : Int) - (c.hysteresis : Int))
    ∧ (e ≤ 255 → 255 < c.heaterStages * c.step → plain < c.heaterStages)

/-- The shed's figures of a cycle (R102, R103): the deviation is the sum of the shares, the deficit the sum, over the zones AUTO in
the cycle, of how far each lies below its WORK setpoint. Each lies within 0..2040 while the setpoints and the readings are
codes 0..255; a zone that is not AUTO in the cycle adds nothing to either. -/
def Claims.DeviationAndDeficit : Prop :=
  (∀ s : State,
    s.cycledClimate.deviation = ((indices 8).map fun z => (s.cycledZones.get z).results.share.getD 0).sum
    ∧ s.cycledClimate.deficit = ((indices 8).map fun z =>
        if (s.cycledZones.get z).mode = .auto ∧ (s.zoneInputs z).code < (s.zoneInputs z).setpointWork
        then (s.zoneInputs z).setpointWork - (s.zoneInputs z).code else 0).sum)
  ∧ ∀ s : State, (∀ z, (s.zoneInputs z).setpoint ≤ 255 ∧ (s.zoneInputs z).setpointWork ≤ 255 ∧ (s.zoneInputs z).code ≤ 255) →
    s.cycledClimate.deviation ≤ 2040 ∧ s.cycledClimate.deficit ≤ 2040
    ∧ ((∀ z, (s.cycledZones.get z).mode ≠ .auto) → s.cycledClimate.deviation = 0 ∧ s.cycledClimate.deficit = 0)

/-- The zone computation's results in each mode, and the shed's figures they make. -/
def Obligations.ZoneResults : Prop :=
  Claims.ZoneResultsByMode ∧ Claims.DeviationAndDeficit

/-! ### Load Allocator -/

/-- A pass as a call starts it (R115, R121, R139, R140): the pass itself (`AllocationPass`), then the Lighting Unit's taking of every
granted level the pass changed, and the requests that this brings. Where the pass changes no granted level nothing follows it;
where the taking brings no request, the grants, the totals, the curtains and the latches are those of the pass; and where no
request it brings names another floor than the group had requested, every zone's heat, fans and stage times are those of the
pass, the cap is kept, and one pass is counted. Only what a pass may touch changes (`GrantsOnly`). -/
def Claims.PassesAreHanded : Prop :=
  ∀ s : State, s.GrantsOnly s.passAndHand
    ∧ ((∀ g, (s.pass.budget.groups.get g).level = (s.budget.groups.get g).level) → s.passAndHand = s.pass)
    ∧ ((s.pass.takeGrants s).2 = [] → s.passAndHand.budget = s.pass.budget ∧ s.passAndHand.doors = s.pass.doors
      ∧ s.passAndHand.links = s.pass.links ∧ s.passAndHand.lines.lines = s.pass.lines.lines
      ∧ ∀ g, s.passAndHand.lighting.groups.get g
          = (if (s.pass.budget.groups.get g).level = (s.budget.groups.get g).level then s.lighting.groups.get g
            else (s.lighting.groups.get g).takeGrant (s.pass.budget.groups.get g).level))
    ∧ ((∀ q ∈ (s.pass.takeGrants s).2, q.floor = (s.budget.groups.get q.group).floorRequest) →
      s.passAndHand.budget.zones = s.pass.budget.zones
      ∧ s.passAndHand.budget.passes = min 4294967295 (s.budget.passes + 1)
      ∧ s.passAndHand.budget.reserved = s.pass.budget.reserved
      ∧ (s.pass.budget.reserved ≤ s.budget.capInForce → s.passAndHand.budget.total ≤ s.budget.capInForce)
      ∧ ∀ c, (s.pass.doors.curtains.get c).granted = true → (s.passAndHand.doors.curtains.get c).granted = true)

/-- CAP_SET, CAP_CLEAR and CAP_EXPIRY (R106 to R109): the supervisor cap replaced, removed or expired; the answer carries the
cap in force after the call, the smaller of the two while a supervisor cap is present; a pass follows exactly where the
cap in force has changed (`PassesAreHanded`). -/
def Claims.CapCallsAndExpiry : Prop :=
  (∀ (s u : State) (o : Origin) (a : CapSetArgs) (m : Nat), s.Admits .capSet o → m = min 1440 a.minutes.toNat →
    u = State.answered
      { s with budget := { s.budget with supCap := some ⟨a.units.toNat, if m = 0 then none else some (60 * m)⟩ } } .capSet o
      ⟨if a.minutes.toNat ≤ 1440 then .ok else .clamped, .capSet a.units.toNat (min s.budget.phaseCap a.units.toNat)
        (if m = 0 then none else some ((s.clock.weekSecond + 60 * m) % 604800))⟩ →
    exec (.capSet o (some a)) s = .next
      (if min s.budget.phaseCap a.units.toNat = s.budget.capInForce then u else u.passAndHand))
  ∧ (∀ (s u : State) (o : Origin), s.Admits .capClear o →
    u = State.answered { s with budget := { s.budget with supCap := none } } .capClear o
      ⟨.ok, .capClear s.budget.phaseCap⟩ →
    exec (.capClear o (some ())) s = .next (if s.budget.phaseCap = s.budget.capInForce then u else u.passAndHand))
  ∧ ∀ (s u : State) (units n : Nat), s.power = .running → .cap ∈ s.owed → s.budget.supCap = some ⟨units, some n⟩ →
    n ≤ 1 → u = { s with owed := s.owed.erase .cap, budget := { s.budget with supCap := none } } →
    exec .capExpiry s = .next (if s.budget.phaseCap = min s.budget.phaseCap units then u else u.passAndHand)

/-- CAP_SET, CAP_CLEAR and CAP_EXPIRY, and the pass that follows them. -/
def Obligations.CapCalls : Prop :=
  Claims.CapCallsAndExpiry ∧ Claims.PassesAreHanded

/-- RATINGS_WRITE (R110, R111): the whole call refused RANGE where one item names a rating that does not exist; otherwise every
item is written, a later item for one rating taking effect last and a rating no item names standing as it was, and a pass
follows exactly where a rating changed (`PassesAreHanded`). -/
def Claims.RatingsWriteCall : Prop :=
  (∀ (s : State) (o : Origin) (a : RatingsArgs), s.Admits .ratingsWrite o →
    (∃ i ∈ a.items, match i with
      | .heater z k _ => 7 < z.toNat ∨ k.toNat = 0 ∨ 4 < k.toNat
      | .fan z _ => 7 < z.toNat
      | .curtain c _ => 15 < c.toNat
      | .group g _ => 23 < g.toNat
      | .noSuchRating => True) →
    exec (.ratingsWrite o (some a)) s = .next (s.answered .ratingsWrite o ⟨.range, .bare⟩))
  ∧ ∀ (s : State) (o : Origin) (a : RatingsArgs), s.Admits .ratingsWrite o →
    (∀ i ∈ a.items, match i with
      | .heater z k _ => z.toNat ≤ 7 ∧ 1 ≤ k.toNat ∧ k.toNat ≤ 4
      | .fan z _ => z.toNat ≤ 7
      | .curtain c _ => c.toNat ≤ 15
      | .group g _ => g.toNat ≤ 23
      | .noSuchRating => False) →
    ∃ r u, u = State.answered { s with budget := { s.budget with ratings := r } } .ratingsWrite o ⟨.ok, .ratings r⟩
      ∧ exec (.ratingsWrite o (some a)) s = .next (if r = s.budget.ratings then u else u.passAndHand)
      ∧ (∀ before after z k v, a.items = before ++ .heater z k v :: after →
          (∀ w, RatingItem.heater z k w ∉ after) →
          ∀ (i : Fin 8) (j : Fin 4), z.toNat = i.val → k.toNat = j.val + 1 → (r.heaters.get i).get j = v.toNat)
      ∧ (∀ before after z v, a.items = before ++ .fan z v :: after → (∀ w, RatingItem.fan z w ∉ after) →
          ∀ i : Fin 8, z.toNat = i.val → r.fans.get i = v.toNat)
      ∧ (∀ before after c v, a.items = before ++ .curtain c v :: after → (∀ w, RatingItem.curtain c w ∉ after) →
          ∀ i : Fin 16, c.toNat = i.val → r.curtains.get i = v.toNat)
      ∧ (∀ before after g v, a.items = before ++ .group g v :: after → (∀ w, RatingItem.group g w ∉ after) →
          ∀ i : Fin 24, g.toNat = i.val → r.groups.get i = v.toNat)
      ∧ (∀ (i : Fin 8) (j : Fin 4),
          (∀ z k v, .heater z k v ∈ a.items → ¬ (z.toNat = i.val ∧ k.toNat = j.val + 1)) →
          (r.heaters.get i).get j = (s.budget.ratings.heaters.get i).get j)
      ∧ (∀ i : Fin 8, (∀ z v, .fan z v ∈ a.items → z.toNat ≠ i.val) → r.fans.get i = s.budget.ratings.fans.get i)
      ∧ (∀ i : Fin 16, (∀ c v, .curtain c v ∈ a.items → c.toNat ≠ i.val) →
          r.curtains.get i = s.budget.ratings.curtains.get i)
      ∧ (∀ i : Fin 24, (∀ g v, .group g v ∈ a.items → g.toNat ≠ i.val) → r.groups.get i = s.budget.ratings.groups.get i)
      ∧ (a.items = [] → r = s.budget.ratings)

/-- RATINGS_WRITE, and the pass that follows it. -/
def Obligations.RatingsWrite : Prop :=
  Claims.RatingsWriteCall ∧ Claims.PassesAreHanded

/-- The check STAGE_TIMES makes for every zone (R112, R126): a zone whose highest stage on is past its minimum on while its request
is below it has every stage above the request off, their times set to 0; every other zone stands; the ratings returned are
offered to the waiting curtains, and no curtain left waiting fits the headroom then. Zone by zone, the total loses the ratings of
the stages switched off, and the reserved total those of them that the last pass counted committed, before the curtains are retried
(R123, R127). -/
def Claims.StagesChecked : Prop :=
  (∀ (s : State) (z : Fin 8) (g : ZoneGrant) (h : Nat) (r : List Nat), g = s.budget.zones.get z →
    h = (s.budget.demandOf z).heat → r = (s.budget.ratings.heaters.get z).rows →
    s.stageCheck z = (if h < g.heat ∧ s.budget.minOn ≤ g.time g.heat then State.retryCurtains
      { s with budget := { s.budget with
          zones := s.budget.zones.set z { g with
            heat := h, committed := min g.committed h
            times := g.times.mapIdx fun i n => if h ≤ i.val ∧ i.val < g.heat then 0 else n }
          total := s.budget.total - ((r.take g.heat).sum - (r.take h).sum)
          reserved := s.budget.reserved - ((r.take g.committed).sum - (r.take (min g.committed h)).sum) } }
      else s))
  ∧ (∀ s : State, s.stageChecks = (indices 8).foldl (fun t z => t.stageCheck z) s)
  ∧ ∀ s t : State, t = s.stageChecks →
    s.GrantsOnly t ∧ t.lighting = s.lighting ∧ t.links = s.links ∧ t.budget.groups = s.budget.groups
    ∧ t.budget.passes = s.budget.passes
    ∧ (∀ z g h, g = s.budget.zones.get z → h = (s.budget.demandOf z).heat →
      (h < g.heat ∧ s.budget.minOn ≤ g.time g.heat → t.budget.zones.get z = { g with
          heat := h, committed := min g.committed h
          times := g.times.mapIdx fun i n => if h ≤ i.val ∧ i.val < g.heat then 0 else n })
      ∧ (g.heat ≤ h ∨ g.time g.heat < s.budget.minOn → t.budget.zones.get z = g))
    ∧ (∀ c, (s.doors.curtains.get c).granted = true → (t.doors.curtains.get c).granted = true)
    ∧ ((∃ z, (s.budget.demandOf z).heat < (s.budget.zones.get z).heat
        ∧ s.budget.minOn ≤ (s.budget.zones.get z).time (s.budget.zones.get z).heat) →
      ∀ c, (t.doors.curtains.get c).state ≠ .idle → (t.doors.curtains.get c).granted = false →
        (t.budget.capInForce : Int) - (t.budget.total : Int) < (t.budget.ratings.curtains.get c : Int))

/-- STAGE_TIMES and BUDGET_READ (R112, R113, R126, R127). That the zones are checked after the answer, and in which order, is the
model's choice (assumptions 6, 47). BUDGET_READ's answer, whatever figures it carries, has a frame of at most 254 bytes that
begins with the start byte, the length of the body, the kind and the tag and ends with the check of them and the body (R159);
that its yeses and noes are sent as sets, so
that it fits, is the model's choice (assumption 14). -/
def Claims.StageTimesAndBudgetReadCalls : Prop :=
  (∀ (s : State) (o : Origin) (a : StageTimesArgs) (on off : Nat), s.Admits .stageTimes o →
    on = (match a.minimumOn with | some v => min 600 v.toNat | none => s.budget.minOn) →
    off = (match a.minimumOff with | some v => min 600 v.toNat | none => s.budget.minOff) →
    exec (.stageTimes o (some a)) s = .next (State.stageChecks
      (State.answered { s with budget := { s.budget with minOn := on, minOff := off } } .stageTimes o
        ⟨if (∃ v, a.minimumOn = some v ∧ 600 < v.toNat) ∨ (∃ v, a.minimumOff = some v ∧ 600 < v.toNat)
          then .clamped else .ok, .stageTimes on off⟩)))
  ∧ (∀ (s : State) (o : Origin), s.Admits .budgetRead o →
    exec (.budgetRead o (some ())) s = .next (s.answered .budgetRead o ⟨.ok, .budget
      { grants :=
          { heat := s.budget.zones.map fun z => z.heat, fans := s.budget.zones.map fun z => z.fans
            curtains := s.doors.curtains.map fun c => c.granted, levels := s.budget.groups.map fun g => g.level
            reserved := s.budget.reserved, total := s.budget.total
            headroom := (s.budget.capInForce : Int) - (s.budget.total : Int)
            capInForce := s.budget.capInForce, passes := s.budget.passes }
        phaseCap := s.budget.phaseCap
        supCap := s.budget.supCap.map fun c => ⟨c.units, c.remaining.map fun n => (s.clock.weekSecond + n) % 604800⟩
        demand := s.budget.demand
        stages := s.budget.zones.map fun z => z.times.mapIdx fun i t => (decide (i.val < z.heat), t)
        requests := s.budget.groups.map fun g => (g.floorRequest, g.levelRequest) }⟩))
  ∧ ∀ (kind tag : Byte) (r : BudgetReport) (body checked : List Byte), body = Wire.body (.answer ⟨.ok, .budget r⟩) →
    checked = [BitVec.ofNat 8 body.length, kind, tag] ++ body →
    body.length ≤ 248 ∧ Wire.frame ⟨kind, tag, .answer ⟨.ok, .budget r⟩⟩
      = some (0x7E :: checked ++ [(crc16 checked).extractLsb' 8 8, (crc16 checked).extractLsb' 0 8])

/-- STAGE_TIMES and BUDGET_READ, and the check STAGE_TIMES makes. -/
def Obligations.StageTimesAndBudgetRead : Prop :=
  Claims.StageTimesAndBudgetReadCalls ∧ Claims.StagesChecked

/-- MINIMUM_ON_END (R112, R123, R126, R127): the second boundary at which a zone's highest stage on is past its minimum on while
its request is below it. Every stage above the request switches off with its time set to 0, the stages kept grow one second
older; the total loses the ratings of the stages switched off, and the reserved total those of them that the last pass counted
committed (`u`); then the waiting curtains are retried, which alone may raise the total again. -/
def Claims.MinimumOnEnd : Prop :=
  ∀ (s u t : State) (z : Fin 8) (g : ZoneGrant) (h : Nat) (r : List Nat), s.power = .running → .stages z ∈ s.owed →
    g = s.budget.zones.get z → h = (s.budget.demandOf z).heat → h < g.heat → g.heat ≤ 4 →
    s.budget.minOn ≤ min 65535 (g.time g.heat + 1) → r = (s.budget.ratings.heaters.get z).rows →
    u = { s with
      owed := s.owed.erase (.stages z)
      budget := { s.budget with
        zones := s.budget.zones.set z { g with
          heat := h, committed := min g.committed h
          times := g.times.mapIdx fun i n => if h ≤ i.val ∧ i.val < g.heat then 0 else min 65535 (n + 1) }
        total := s.budget.total - ((r.take g.heat).sum - (r.take h).sum)
        reserved := s.budget.reserved - ((r.take g.committed).sum - (r.take (min g.committed h)).sum) } } →
    t = u.retryCurtains →
    exec (.minimumOnEnd z) s = .next t ∧ State.GrantsOnly { s with owed := s.owed.erase (.stages z) } t
      ∧ (t.budget.zones.get z).heat = h ∧ (t.budget.zones.get z).fans = g.fans
      ∧ (∀ i : Fin 4, (t.budget.zones.get z).times.get i
          = if h ≤ i.val ∧ i.val < g.heat then 0 else min 65535 (g.times.get i + 1))
      ∧ (∀ y, y ≠ z → t.budget.zones.get y = s.budget.zones.get y)
      ∧ t.budget.groups = s.budget.groups ∧ t.budget.passes = s.budget.passes
      ∧ t.budget.reserved = u.budget.reserved ∧ u.budget.total ≤ t.budget.total
      ∧ (∀ c, (s.doors.curtains.get c).granted = true → (t.doors.curtains.get c).granted = true)
      ∧ t.lighting = s.lighting ∧ t.links = s.links

/-- A pass never grants outside the reserved class more than the cap in force leaves (R115, R116, R121): under OVERCAP it
grants the reserved class alone, and otherwise the total is at most the cap in force. -/
def Claims.PassStaysUnderTheCap : Prop :=
  ∀ s : State,
    s.pass.budget.reserved = s.budget.reservedGrants.total s.budget.ratings
    ∧ s.pass.budget.total = s.passGrants.total s.budget.ratings
    ∧ (s.budget.capInForce < s.pass.budget.reserved →
        s.pass.budget.total = s.pass.budget.reserved ∧ s.pass.links.isSet .overcap = true)
    ∧ (s.pass.budget.reserved ≤ s.budget.capInForce → s.pass.budget.total ≤ s.budget.capInForce)
    ∧ s.pass.budget.passes = min 4294967295 (s.budget.passes + 1)

/-- What a pass grants each load (R114, R116 to R120): a zone that is not OFF at least its gas floor and no more than the
larger of its fan request and that floor; every committed heater stage and, beyond them, no more stages than are asked
and none that is off and within its minimum off; a curtain only while it is DEMANDED or in RUN_ON; a lamp group at least
its floor and at most its desired level. -/
def Claims.PassGrantsWithinRequests : Prop :=
  ∀ (s : State) (g : Grants), g = s.passGrants →
    (∀ z, (s.budget.demandOf z).mode ≠ .off → (s.budget.demandOf z).gasFloor ≤ g.fans.get z
      ∧ g.fans.get z ≤ max (s.budget.demandOf z).gasFloor (s.budget.demandOf z).fans)
    ∧ (∀ z, (s.budget.demandOf z).mode = .off → g.fans.get z = 0
      ∧ g.heat.get z = (s.budget.zones.get z).committedNow s.budget.minOn)
    ∧ (∀ z, (s.budget.zones.get z).committedNow s.budget.minOn ≤ g.heat.get z
      ∧ g.heat.get z ≤ max ((s.budget.zones.get z).committedNow s.budget.minOn) (s.budget.demandOf z).heat
      ∧ ∀ r, (s.budget.zones.get z).heat < r → (s.budget.zones.get z).time r < s.budget.minOff →
          (s.budget.zones.get z).committedNow s.budget.minOn < r → g.heat.get z < r)
    ∧ (∀ c, g.curtains.get c = true → (s.doors.curtains.get c).state ≠ .idle)
    ∧ (∀ i, (s.budget.groups.get i).floorRequest ≤ g.levels.get i
      ∧ g.levels.get i ≤ max (s.budget.groups.get i).floorRequest (s.budget.groups.get i).levelRequest)

/-- What a pass offers, in order, and when it grants (R115, R116, R118, R119, R120). From the reserved class and the remainder the cap
leaves: the curtains ascending; fan stages 1 to 3 and then heater stages 1 to 4, each stage through the zone order; the lamp
groups ascending. A curtain that is not IDLE is granted exactly when its rating is at most what is left; a stage exactly when it is
asked for, the stage below it is granted, its rating is at most what is left and, of a heater stage, it is not off within its
minimum off; a group is granted the largest level up to its desired one whose draw above its floor's is at most what is left. What
is granted is taken from what is left. -/
def Claims.PassOffersInOrder : Prop :=
  (∀ (s : State) (a : Allocator) (base : Grants) (w : Round), a = s.budget →
    base = { heat := Table.ofFn fun z => (a.zones.get z).committedNow a.minOn
             fans := Table.ofFn fun z => if (a.demandOf z).mode = .off then 0 else (a.demandOf z).gasFloor
             curtains := Table.fill 16 false, levels := Table.ofFn fun g => (a.groups.get g).floorRequest } →
    w = (indices 24).foldl (fun w g => w.offerLight a g)
      ([1, 2, 3, 4].foldl (fun w r => a.zoneOrder.foldl (fun w z => w.offerHeat a r z) w)
        ([1, 2, 3].foldl (fun w r => a.zoneOrder.foldl (fun w z => w.offerFan a r z) w)
          ((indices 16).foldl (fun w c => w.offerCurtain s c) ⟨base, a.capInForce - base.total a.ratings⟩))) →
    s.passGrants = (if a.capInForce < base.total a.ratings then base else w.grants))
  ∧ (∀ (s : State) (w : Round) (c : Fin 16) (n : Nat), n = s.budget.ratings.curtains.get c →
    w.offerCurtain s c = (if (s.doors.curtains.get c).state ≠ .idle ∧ n ≤ w.left
      then ⟨{ w.grants with curtains := w.grants.curtains.set c true }, w.left - n⟩ else w))
  ∧ (∀ (a : Allocator) (w : Round) (r n : Nat) (z : Fin 8), n = a.ratings.fans.get z →
    w.offerFan a r z = (if r ≤ (a.demandOf z).fans ∧ w.grants.fans.get z + 1 = r ∧ n ≤ w.left
      then ⟨{ w.grants with fans := w.grants.fans.set z r }, w.left - n⟩ else w))
  ∧ (∀ (a : Allocator) (w : Round) (i : Fin 4) (n : Nat) (z : Fin 8), n = (a.ratings.heaters.get z).get i →
    w.offerHeat a (i.val + 1) z = (if i.val + 1 ≤ (a.demandOf z).heat ∧ w.grants.heat.get z = i.val
        ∧ ¬ ((a.zones.get z).heat ≤ i.val ∧ (a.zones.get z).times.get i < a.minOff) ∧ n ≤ w.left
      then ⟨{ w.grants with heat := w.grants.heat.set z (i.val + 1) }, w.left - n⟩ else w))
  ∧ ∀ (a : Allocator) (w v : Round) (g : Fin 24) (x : GroupGrant) (rating : Nat), v = w.offerLight a g → x = a.groups.get g →
    rating = a.ratings.groups.get g →
    v.grants = { w.grants with levels := w.grants.levels.set g (v.grants.levels.get g) }
    ∧ x.floorRequest ≤ v.grants.levels.get g ∧ v.grants.levels.get g ≤ max x.floorRequest x.levelRequest
    ∧ draw rating (v.grants.levels.get g) ≤ draw rating x.floorRequest + w.left
    ∧ (∀ k, v.grants.levels.get g < k → k ≤ max x.floorRequest x.levelRequest →
        draw rating x.floorRequest + w.left < draw rating k)
    ∧ v.left + draw rating (v.grants.levels.get g) = w.left + draw rating x.floorRequest

/-- A pass grants every request in full where all of them together fit the cap in force and no stage asked for is off within its
minimum off (R115 to R120): of every zone that is not OFF the fan stages and the heater stages it asks for, every curtain that is
not IDLE, and every group's desired level. -/
def Claims.PassGrantsAllThatFits : Prop :=
  ∀ (s : State) (a : Allocator) (g : Grants), a = s.budget →
    g = { heat := Table.ofFn fun z => max ((a.zones.get z).committedNow a.minOn)
            (if (a.demandOf z).mode = .off then 0 else min 4 (a.demandOf z).heat)
          fans := Table.ofFn fun z =>
            if (a.demandOf z).mode = .off then 0 else max (a.demandOf z).gasFloor (min 3 (a.demandOf z).fans)
          curtains := Table.ofFn fun c => (s.doors.curtains.get c).state != .idle
          levels := Table.ofFn fun i => max (a.groups.get i).floorRequest (a.groups.get i).levelRequest } →
    g.total a.ratings ≤ a.capInForce →
    (∀ z r, (a.zones.get z).heat < r → r ≤ g.heat.get z → a.minOff ≤ (a.zones.get z).time r) →
    s.passGrants = g

/-- The zone order (R117): MANUAL zones ascending, AUTO zones by descending effective error with ties ascending, DEGRADED zones
ascending; OFF zones take no part and every other zone takes part once. -/
def Claims.ZoneOrder : Prop :=
  ∀ a : Allocator, a.zoneOrder.Nodup ∧ (∀ z, z ∈ a.zoneOrder ↔ (a.demandOf z).mode ≠ .off)
    ∧ ∀ y z, (a.demandOf y).mode ≠ .off → (a.demandOf z).mode ≠ .off →
      ((a.demandOf y).mode = .manual ∧ ((a.demandOf z).mode ≠ .manual ∨ y < z)
        ∨ (a.demandOf y).mode = .auto ∧ ((a.demandOf z).mode = .degraded
          ∨ (a.demandOf z).mode = .auto ∧
            (((a.demandOf z).effective.getD 0) < ((a.demandOf y).effective.getD 0)
              ∨ ((a.demandOf y).effective.getD 0) = ((a.demandOf z).effective.getD 0) ∧ y < z))
        ∨ (a.demandOf y).mode = .degraded ∧ (a.demandOf z).mode = .degraded ∧ y < z) →
      a.zoneOrder.idxOf y < a.zoneOrder.idxOf z

/-- The figures a pass is stated with (R112, R116, R121): the committed stages of a zone reach up to the highest stage that is on and
within its minimum on; a total is the sum of the ratings and draws of everything granted. -/
def Claims.PassFigures : Prop :=
  (∀ (x : ZoneGrant) (on c : Nat), c = x.committedNow on → c ≤ x.heat ∧ (c ≠ 0 → x.time c < on)
    ∧ ∀ i, c < i → i ≤ x.heat → on ≤ x.time i)
  ∧ ∀ (g : Grants) (r : Ratings), g.total r
    = ((indices 8).map fun z => ((r.heaters.get z).rows.take (g.heat.get z)).sum).sum
      + ((indices 8).map fun z => r.fans.get z * g.fans.get z).sum
      + ((indices 16).map fun c => if g.curtains.get c = true then r.curtains.get c else 0).sum
      + ((indices 24).map fun i => draw (r.groups.get i) (g.levels.get i)).sum

/-- What a pass writes of its grants `g` (R112, R115, R116, R119, R121, R127, R153): every zone's heater and fan stages, with the
committed stages and the gas floor its reserved total counts, and a time since change of 0 exactly at the heater stages it switched;
every group's level; every curtain's granted field; the totals and the count; the latch of every line bound to an owned output
function; OVERCAP where the reserved total is above the cap; and nothing else. -/
def Claims.PassWritesTheTable : Prop :=
  ∀ (s t : State) (a : Allocator) (g base : Grants), a = s.budget → g = s.passGrants → t = s.pass →
    base = { heat := Table.ofFn fun z => (a.zones.get z).committedNow a.minOn
             fans := Table.ofFn fun z => if (a.demandOf z).mode = .off then 0 else (a.demandOf z).gasFloor
             curtains := Table.fill 16 false, levels := Table.ofFn fun i => (a.groups.get i).floorRequest } →
    (∀ z x, x = a.zones.get z → t.budget.zones.get z =
      { heat := g.heat.get z, fans := g.fans.get z, committed := base.heat.get z, floorFans := base.fans.get z
        times := Table.ofFn fun i => if (i.val < x.heat ↔ i.val < g.heat.get z) then x.times.get i else 0 })
    ∧ (∀ i, t.budget.groups.get i = { a.groups.get i with level := g.levels.get i })
    ∧ (∀ c, t.doors.curtains.get c = { s.doors.curtains.get c with granted := g.curtains.get c })
    ∧ (∀ l x, x = s.lines.lines.get l → t.lines.lines.get l = { x with latch :=
        match x.config.mode, x.config.binding with
        | .output, .heat z i => decide (i ≤ g.heat.get z)
        | .output, .fan z i => decide (i ≤ g.fans.get z)
        | .output, .curtain c => g.curtains.get c
        | _, _ => x.latch })
    ∧ t = { s with
        budget := { a with zones := t.budget.zones, groups := t.budget.groups, reserved := base.total a.ratings
                           total := g.total a.ratings, passes := min 4294967295 (a.passes + 1) }
        doors := { s.doors with curtains := t.doors.curtains }
        lines := { s.lines with lines := t.lines.lines }
        links := if a.capInForce < base.total a.ratings then s.links.raise .overcap else s.links }

/-- The allocation pass: the cap, the grants, what is offered in which order, the order of the zones, and the state it leaves. -/
def Obligations.AllocationPass : Prop :=
  Claims.PassStaysUnderTheCap ∧ Claims.PassGrantsWithinRequests ∧ Claims.PassOffersInOrder ∧ Claims.PassGrantsAllThatFits
    ∧ Claims.ZoneOrder ∧ Claims.PassFigures ∧ Claims.PassWritesTheTable

/-- The services between passes (R110, R122 to R125, R153): a demand granted at once exactly where its rating is at most the
headroom; a release returning its rating; a zone going OFF releasing its stages at once, even within their minimum on. -/
def Claims.GrantsBetweenPasses : Prop :=
  (∀ (s : State) (c : Fin 16), (s.doors.curtains.get c).state ≠ .idle → (s.doors.curtains.get c).granted = false →
    ((s.curtainDemand c).doors.curtains.get c).granted
      = decide ((s.budget.ratings.curtains.get c : Int) ≤ (s.budget.capInForce : Int) - (s.budget.total : Int))
    ∧ (s.curtainDemand c).budget.total = s.budget.total +
      (if (s.budget.ratings.curtains.get c : Int) ≤ (s.budget.capInForce : Int) - (s.budget.total : Int)
        then s.budget.ratings.curtains.get c else 0))
  ∧ (∀ (s : State) (c : Fin 16), (s.doors.curtains.get c).state = .idle →
    ((s.curtainRelease c).doors.curtains.get c).granted = false
    ∧ ((s.doors.curtains.get c).granted = false → s.curtainRelease c = s)
    ∧ (∀ e, e ≠ c → (s.doors.curtains.get e).granted = true → ((s.curtainRelease c).doors.curtains.get e).granted = true))
  ∧ (∀ (s : State) (z : Fin 8), ((s.zoneOff z).budget.zones.get z).heat = 0 ∧ ((s.zoneOff z).budget.zones.get z).fans = 0
    ∧ ((s.zoneOff z).budget.demandOf z).mode = .off
    ∧ (∀ i : Fin 4, i.val < (s.budget.zones.get z).heat → ((s.zoneOff z).budget.zones.get z).times.get i = 0)
    ∧ (∀ y, y ≠ z → (s.zoneOff z).budget.zones.get y = s.budget.zones.get y)
    ∧ ∀ g, g = s.budget.zones.get z → g.heat ≠ 0 ∨ g.fans ≠ 0 → s.zoneOff z = State.retryCurtains
      { s with budget := { s.budget with
          demand := s.budget.demand.map fun d => d.set z ⟨.off, none, 0, 0, 0⟩
          zones := s.budget.zones.set z
            { heat := 0, fans := 0, committed := 0, floorFans := 0
              times := g.times.mapIdx fun i n => if i.val < g.heat then 0 else n }
          total := s.budget.total - (((s.budget.ratings.heaters.get z).rows.take g.heat).sum
            + s.budget.ratings.fans.get z * g.fans)
          reserved := s.budget.reserved - (((s.budget.ratings.heaters.get z).rows.take g.committed).sum
            + s.budget.ratings.fans.get z * g.floorFans) } })
  ∧ (∀ (s : State) (l : Fin 192) (on : Bool), (s.lines.lines.get l).config.mode = .output →
    s.functionOn (s.lines.lines.get l).config.binding = some on → (s.followGrants.lines.lines.get l).latch = on)
  ∧ draw 600 10 = 60 ∧ draw 600 40 = 240 ∧ draw 250 1 = 3

/-- The waiting curtains retried (R123): every curtain granted stays so; in ascending order, each that is not IDLE and not granted is
granted exactly when its rating is at most the headroom less the ratings of those granted before it; the total grows by what is
granted, and the latch of a curtain's line follows its grant (R153). A release of a granted curtain ungrants it, returns its rating and retries them. -/
def Claims.WaitingCurtainsRetried : Prop :=
  (∀ (s t : State) (fresh : Fin 16 → Bool), t = s.retryCurtains →
    (∀ c, fresh c = ((t.doors.curtains.get c).granted && !(s.doors.curtains.get c).granted)) →
    s.GrantsOnly t ∧ t.lighting = s.lighting ∧ t.links = s.links ∧ t.budget = { s.budget with total := t.budget.total }
    ∧ (∀ c, (s.doors.curtains.get c).granted = true → (t.doors.curtains.get c).granted = true)
    ∧ (∀ c, (s.doors.curtains.get c).granted = false → (fresh c = true ↔
        (s.doors.curtains.get c).state ≠ .idle
        ∧ (s.budget.ratings.curtains.get c : Int) ≤ (s.budget.capInForce : Int) - (s.budget.total : Int)
          - ((((indices 16).filter fun e => e < c ∧ fresh e = true).map fun e => s.budget.ratings.curtains.get e).sum : Nat)))
    ∧ t.budget.total = s.budget.total
      + (((indices 16).filter fun e => fresh e = true).map fun e => s.budget.ratings.curtains.get e).sum
    ∧ ∀ l c, (t.lines.lines.get l).config.mode = .output → (t.lines.lines.get l).config.binding = .curtain c →
        (t.lines.lines.get l).latch = (t.doors.curtains.get c).granted)
  ∧ ∀ (s : State) (c : Fin 16) (x : Curtain), x = s.doors.curtains.get c → x.granted = true →
    s.curtainRelease c = State.retryCurtains
      { s.setCurtain c { x with granted := false } with
        budget := { s.budget with total := s.budget.total - s.budget.ratings.curtains.get c } }

/-- A lighting request (R114, R124). Steps 1 to 4, with `fallen` the level and `total` the total after steps 2 and 3: the floor and the desired level
recorded, the desired level taken as the floor when it is lower; the granted level lowered to the desired level, raised to the
floor, and then, where there is headroom, raised to the largest level up to the desired one whose draw above that of `fallen` fits
it; the reserved total reckoned afresh, and nothing else changed. Then OVERCAP where a floor grant or a raised floor takes the
reserved total above the cap; a pass where more is granted outside the reserved class than the cap leaves; and the waiting curtains
retried where step 2 returned load. -/
def Claims.LightingRequests : Prop :=
  (∀ (s t : State) (q : LightRequest) (x y : GroupGrant) (rating fallen total : Nat) (headroom : Int), t = s.applyRequest q →
    x = s.budget.groups.get q.group → y = t.budget.groups.get q.group → rating = s.budget.ratings.groups.get q.group →
    fallen = max (min x.level (max q.floor q.level)) q.floor →
    total = s.budget.total + draw rating fallen - draw rating x.level →
    headroom = (s.budget.capInForce : Int) - (total : Int) →
    y.floorRequest = q.floor ∧ y.levelRequest = max q.floor q.level
    ∧ q.floor ≤ y.level ∧ y.level ≤ max q.floor q.level ∧ fallen ≤ y.level
    ∧ (headroom ≤ 0 → y.level = fallen)
    ∧ (0 < headroom → (draw rating y.level : Int) - draw rating fallen ≤ headroom
      ∧ ∀ k, y.level < k → k ≤ max q.floor q.level → headroom < (draw rating k : Int) - draw rating fallen)
    ∧ t = { s with budget := { s.budget with
        groups := s.budget.groups.set q.group y, total := t.budget.total, reserved := t.budget.reserved } }
    ∧ t.budget.total = total + draw rating y.level - draw rating fallen
    ∧ t.budget.reserved = s.budget.reserved + draw rating q.floor - draw rating x.floorRequest)
  ∧ ∀ (s t u : State) (q : LightRequest) (x : GroupGrant), x = s.budget.groups.get q.group →
    t = (if (x.floorRequest < q.floor ∨ x.level < q.floor)
        ∧ (s.applyRequest q).budget.capInForce < (s.applyRequest q).budget.reserved
      then (s.applyRequest q).raise .overcap else s.applyRequest q) →
    u = (if max 0 ((t.budget.capInForce : Int) - t.budget.reserved) < (t.budget.total : Int) - t.budget.reserved
      then t.pass else t) →
    s.lightRequest q = (if max q.floor q.level < x.level then u.retryCurtains else u)

/-- Grants between passes, the retry of the waiting curtains, the lighting's requests, and MINIMUM_ON_END. -/
def Obligations.GrantsAndRequests : Prop :=
  Claims.GrantsBetweenPasses ∧ Claims.WaitingCurtainsRetried ∧ Claims.LightingRequests ∧ Claims.MinimumOnEnd

/-! ### Lighting Unit -/

/-- GROUP_CONFIG (R129, R130, R134): RANGE and ACTIVE, RANGE where both hold, which is the model's choice (assumption 66); otherwise the configuration is replaced and the dynamic part follows:
a group made disabled is dark at once, a disabled group made enabled is started, and a group left enabled keeps its
state, override and hold but for what a changed occupancy hold does. That a disabled group's trim becomes 0 is the model's choice
(assumption 53), as is that the recomputation uses the ramp rate written (assumption 58). The group recomputes, and its
request is taken after the answer (assumption 6). -/
def Obligations.GroupConfigCall : Prop :=
  (∀ (s : State) (o : Origin) (a : GroupConfigArgs) (g : Fin 24) (z : Fin 8) (k : GroupKind) (x y : Group)
      (c : GroupConfig) (r : Reply) (h : Handed),
    s.Admits .groupConfig o → a.group.toNat = g.val → a.zone.toNat = z.val → a.kind = some k →
    ¬ (a.doorLinked = true ∧ k = .aisle) → x = s.lighting.groups.get g →
    c = ⟨a.enabled, z, k, a.doorLinked, a.trimmed, min 120 a.hold.toNat, min 100 a.rampRate.toNat⟩ →
    r = ⟨if a.hold.toNat ≤ 120 ∧ a.rampRate.toNat ≤ 100 then .ok else .clamped, .groupConfig c⟩ →
    y = (if c.enabled = false then
        { x with config := c, state := .disabled, override := none, hold := none, trim := 0, desired := 0, output := 0 }
      else if x.state = .disabled then
        { x with config := c, state := .lit, override := none, hold := if c.hold = 0 then none else some (60 * c.hold) }
      else if c.hold = 0 then { x with config := c, hold := none, state := if x.state = .vacant then .lit else x.state }
      else if x.config.hold = 0 then { x with config := c, hold := some (x.hold.getD (60 * c.hold)) }
      else { x with config := c, hold := x.hold.map (min (60 * c.hold)) }) →
    h = (s.unanswered o).groupsDo [g] (fun s g _ => recomputed s g y) →
    exec (.groupConfig o (some a)) s = .next
      (if x.state = .disabled ∨ s.zoneMode x.config.zone = .off then
        Handed.settle (h.1.answer .groupConfig o r, h.2)
      else s.answered .groupConfig o ⟨.active, .bare⟩))
  ∧ ∀ (s : State) (o : Origin) (a : GroupConfigArgs), s.Admits .groupConfig o →
    23 < a.group.toNat ∨ 7 < a.zone.toNat ∨ a.kind = none ∨ (a.doorLinked = true ∧ a.kind = some .aisle) →
    exec (.groupConfig o (some a)) s = .next (s.answered .groupConfig o ⟨.range, .bare⟩)

/-- GROUP_OVERRIDE and GROUP_RELEASE (R141, R142): the level taken into 0..100 and raised to the floor of the phase in force,
the minutes taken into 1..240; the release of a group that is not OVERRIDDEN is answered OK and changes nothing. -/
def Claims.GroupOverrideAndRelease : Prop :=
  (∀ (s : State) (o : Origin) (a : GroupOverrideArgs) (g : Fin 24) (x : Group) (level m : Nat) (h : Handed),
    s.Admits .groupOverride o → a.group.toNat = g.val → x = s.lighting.groups.get g →
    level = max (min 100 a.level.toNat) (s.scene g).floor → m = max 1 (min 240 a.minutes.toNat) →
    h = (s.unanswered o).groupsDo [g]
      (fun s g _ => recomputed s g { x with state := .overridden, override := some ⟨level, 60 * m⟩ }) →
    exec (.groupOverride o (some a)) s = .next
      (if x.state = .disabled then s.answered .groupOverride o ⟨.range, .bare⟩
      else Handed.settle
        (h.1.answer .groupOverride o
          ⟨if level = a.level.toNat ∧ m = a.minutes.toNat then .ok else .clamped,
            .groupOverride level ((s.clock.weekSecond + 60 * m) % 604800)⟩, h.2)))
  ∧ (∀ (s : State) (o : Origin) (a : IndexArgs) (g : Fin 24) (x : Group) (h : Handed),
    s.Admits .groupRelease o → a.index.toNat = g.val → x = s.lighting.groups.get g →
    h = (s.unanswered o).groupsDo [g]
      (fun s g _ => recomputed s g { x with override := none, state := if x.hold = some 0 then .vacant else .lit }) →
    exec (.groupRelease o (some a)) s = .next
      (if x.state = .overridden then Handed.settle (h.1.answer .groupRelease o ⟨.ok, .bare⟩, h.2)
      else s.answered .groupRelease o ⟨.ok, .bare⟩))
  ∧ (∀ (s : State) (o : Origin) (a : GroupOverrideArgs), s.Admits .groupOverride o → 23 < a.group.toNat →
    exec (.groupOverride o (some a)) s = .next (s.answered .groupOverride o ⟨.range, .bare⟩))
  ∧ ∀ (s : State) (o : Origin) (a : IndexArgs), s.Admits .groupRelease o → 23 < a.index.toNat →
    exec (.groupRelease o (some a)) s = .next (s.answered .groupRelease o ⟨.range, .bare⟩)

/-- What a lighting event of one group leaves (R135, R136, R138, R139, R140, R144), from the record `x` the event gives the
group: its configuration, state, hold and override are those of `x`, its desired level that of its state and of the scene
in force, less the trim of the daylight as last taken, 0 in a DISABLED group (assumption 53); its request is the floor of the
scene and the larger of its desired level and its output; every other group keeps its own; from there only grants move, as the
group's request moves them (`GrantsOnly`, `RequestsReachTheAllocator`). -/
def Claims.GroupEventsRecompute : Prop :=
  ∀ (s t : State) (k : CallKind) (o : Origin) (r : Reply) (g : Fin 24) (x : Group) (h : Handed),
    h = s.groupsDo [g] (fun s g _ => recomputed s g x) → t = Handed.settle (h.1.answer k o r, h.2) →
    (t.lighting.groups.get g).config = x.config ∧ (t.lighting.groups.get g).state = x.state
    ∧ (t.lighting.groups.get g).hold = x.hold ∧ (t.lighting.groups.get g).override = x.override
    ∧ (t.lighting.groups.get g).desired =
        (match x.state with
          | .disabled => 0
          | .overridden => max ((x.override.map GroupOverride.level).getD 0) (s.scene g).floor
          | .lit => max (s.scene g).floor ((s.scene g).level - (t.lighting.groups.get g).trim)
          | .vacant => max (s.scene g).floor ((s.scene g).vacant - (t.lighting.groups.get g).trim))
    ∧ (∀ lux base, x.config.trimmed = true →
        x.state = .lit ∧ base = (s.scene g).level ∨ x.state = .vacant ∧ base = (s.scene g).vacant →
        s.lighting.taken.reading.status ≠ .lost → s.lighting.taken.reading.value = some lux →
        (t.lighting.groups.get g).trim =
          if s.lighting.taken.luxStart < lux then
            min ((lux - s.lighting.taken.luxStart) * s.lighting.taken.gain / 1000) (base - (s.scene g).floor)
          else 0)
    ∧ (x.config.trimmed = false ∨ x.state = .overridden ∨ x.state = .disabled
        ∨ s.lighting.taken.reading.status = .lost → (t.lighting.groups.get g).trim = 0)
    ∧ ((t.lighting.groups.get g).floorRequest, (t.lighting.groups.get g).levelRequest)
        = (if x.state = .disabled then (0, 0)
          else ((s.scene g).floor, max (t.lighting.groups.get g).desired (t.lighting.groups.get g).output))
    ∧ (∀ i, i ≠ g → (t.lighting.groups.get i).config = (s.lighting.groups.get i).config
        ∧ (t.lighting.groups.get i).state = (s.lighting.groups.get i).state
        ∧ (t.lighting.groups.get i).hold = (s.lighting.groups.get i).hold
        ∧ (t.lighting.groups.get i).override = (s.lighting.groups.get i).override
        ∧ (t.lighting.groups.get i).desired = (s.lighting.groups.get i).desired)
    ∧ State.GrantsOnly { s with lighting := { s.lighting with
        groups := s.lighting.groups.set g (x.recompute (s.scene g) s.lighting.taken) } } t

/-- How a group's request reaches the allocator (R124, R139, R140). An event of one group, from the record `y` the event gives it,
hands the request of `y` exactly when it differs from what the group last handed, and records it; an event that hands none is over.
The allocator takes a request handed as one event (`LightingRequests`), and the Lighting Unit every level it changed: where that
brings no further request it is over, and the allocator holds the floor and the level requested. A further request of the group
names the same floor, so the floor the allocator holds at the end is that one whatever follows. -/
def Claims.RequestsReachTheAllocator : Prop :=
  (∀ (s u : State) (g : Fin 24) (x y : Group) (q : LightRequest), y = x.recompute (s.scene g) s.lighting.taken →
    q = (if y.state = .disabled then ⟨g, 0, 0⟩ else ⟨g, (s.scene g).floor, max y.desired y.output⟩) →
    u = { s with
      lighting := { s.lighting with
        groups := s.lighting.groups.set g { y with floorRequest := q.floor, levelRequest := q.level } }
      lines := { s.lines with dimmers := s.lines.dimmers.set g y.output } } →
    s.groupsDo [g] (fun s g _ => recomputed s g x)
      = (u, if q.floor = y.floorRequest ∧ q.level = y.levelRequest then [] else [q]))
  ∧ (∀ s : State, Handed.settle (s, []) = s)
  ∧ ∀ (s t v : State) (q : LightRequest), t = Handed.settle (s, [q]) → v = s.lightRequest q →
    ((v.takeGrants s).2 = [] → t = (v.takeGrants s).1 ∧ t.budget = v.budget ∧ t.doors = v.doors ∧ t.links = v.links
      ∧ (t.budget.groups.get q.group).floorRequest = q.floor
      ∧ (t.budget.groups.get q.group).levelRequest = max q.floor q.level)
    ∧ ((∀ g, (v.budget.groups.get g).level = (s.budget.groups.get g).level) → t = v)
    ∧ (q.floor = (if (s.lighting.groups.get q.group).state = .disabled then 0 else (s.scene q.group).floor) →
      (t.budget.groups.get q.group).floorRequest = q.floor)

/-- What occupancy does to a group (R131, R132, R133): a delivery of an occupancy line that is inactive, or follows an active
one, or finds the group DISABLED or without an occupancy hold, is recorded and does nothing else; a change to active restarts
the hold, makes a VACANT group LIT and recomputes it; door activity does the same to every enabled door-linked group of the
zone with an occupancy hold (`activityGroups`), and to no other. From there only grants move (`GrantsOnly`). -/
def Claims.OccupancyLights : Prop :=
  (∀ (s : State) (g : Fin 24) (x y : Group) (active : Bool), x = s.lighting.groups.get g →
    y = { x with
      lastOccupancy := true, hold := some (60 * x.config.hold)
      state := if x.state = .vacant then .lit else x.state } →
    (active = false ∨ x.lastOccupancy = true ∨ x.state = .disabled ∨ x.config.hold = 0 →
      s.deliverOccupancy g active = s.setGroup g { x with lastOccupancy := active })
    ∧ (active = true → x.lastOccupancy = false → x.state ≠ .disabled → x.config.hold ≠ 0 →
      State.GrantsOnly
        { s with lighting := { s.lighting with
            groups := s.lighting.groups.set g (y.recompute (s.scene g) s.lighting.taken) } }
        (s.deliverOccupancy g true)))
  ∧ ∀ (s : State) (z : Fin 8),
    State.GrantsOnly { s with lighting := { s.lighting with groups := Claims.activityGroups s z } } (s.doorActivity z)

/-- GROUP_OVERRIDE and GROUP_RELEASE, the events that recompute a group, how its request reaches the allocator, and occupancy. -/
def Obligations.GroupCallsAndEvents : Prop :=
  Claims.GroupOverrideAndRelease ∧ Claims.GroupEventsRecompute ∧ Claims.RequestsReachTheAllocator ∧ Claims.OccupancyLights

/-- An enabled group's record once its override and its hold have counted down by a second (R130, R133, R142): an override that
reaches 0 is removed and leaves the group VACANT where its hold is at 0 and LIT otherwise; a hold that reaches 0 makes a LIT
group VACANT. -/
def Claims.secondCounted (x : Group) : Group :=
  let y : Group := match x.override with
    | none => x
    | some v =>
      if v.seconds ≤ 1 then { x with override := none, state := if x.hold = some 0 then .vacant else .lit }
      else { x with override := some { v with seconds := v.seconds - 1 } }
  match y.hold with
  | some (n + 1) => { y with hold := some n, state := if n = 0 ∧ y.state = .lit then .vacant else y.state }
  | _ => y

/-- The Lighting Unit's second boundary in full (R133, R135, R136, R138, R139, R142, R143): with the daylight taken, every
enabled group counts down (`secondCounted`), recomputes and makes its ramp step; each group's record is stored with the request
it then makes, its output going to its dimmer channel; the requests that differ from what their groups last handed are handed,
in ascending group number (R138), and the allocator takes them (`RequestsReachTheAllocator`). Only after that may a grant
move an output (`OutputsRampAndFollow`). -/
def Claims.LampSecondInFull : Prop :=
  ∀ (s v : State) (light : Daylight) (y : Fin 24 → Group) (q : Fin 24 → LightRequest),
    light = ⟨s.sensors.reading s.sensors.map.daylight, s.lighting.luxStart, s.lighting.gain⟩ →
    y = (fun g =>
      let x := s.lighting.groups.get g
      if x.state = .disabled then x else ((Claims.secondCounted x).recompute (s.scene g) light).rampStep) →
    q = (fun g => if (y g).state = .disabled then ⟨g, 0, 0⟩
      else ⟨g, (s.scene g).floor, max (y g).desired (y g).output⟩) →
    v = { s with
      lighting := { s.lighting with
        taken := light
        groups := Table.ofFn fun g => { y g with floorRequest := (q g).floor, levelRequest := (q g).level } }
      lines := { s.lines with dimmers := Table.ofFn fun g => (y g).output } } →
    s.lightSecond = Handed.settle (v, (indices 24).filterMap fun g =>
      if (q g).floor = (y g).floorRequest ∧ (q g).level = (y g).levelRequest then none else some (q g))

/-- HOLD_EXPIRY and GROUP_OVERRIDE_END (R130, R133, R138, R142): the Lighting Unit's second boundary at which a LIT group's
hold, or an OVERRIDDEN group's override, reaches 0. It is one event for all groups: every other enabled group's hold and
override count down with it, its output ramps, and from there only grants move (`GrantsOnly`). That the boundary waits in
`owed` for its row is the model's choice (assumption 1). -/
def Claims.LampSecondsEnd : Prop :=
  ∀ (s u : State) (g : Fin 24) (x : Group), s.power = .running → .lighting ∈ s.owed → x = s.lighting.groups.get g →
    u = { s with owed := s.owed.erase .lighting } →
    (x.state = .lit → x.hold = some 1 → x.override = none →
      exec (.holdExpiry g) s = .next u.lightSecond
      ∧ (u.lightSecond.lighting.groups.get g).state = .vacant ∧ (u.lightSecond.lighting.groups.get g).hold = some 0)
    ∧ (∀ v, x.state = .overridden → x.override = some v → v.seconds ≤ 1 →
      exec (.groupOverrideEnd g) s = .next u.lightSecond
      ∧ (u.lightSecond.lighting.groups.get g).override = none
      ∧ (u.lightSecond.lighting.groups.get g).state = (if x.hold = some 0 ∨ x.hold = some 1 then .vacant else .lit))
    ∧ (∀ i, (s.lighting.groups.get i).state ≠ .disabled →
      (u.lightSecond.lighting.groups.get i).config = (s.lighting.groups.get i).config
      ∧ (u.lightSecond.lighting.groups.get i).hold
          = (match (s.lighting.groups.get i).hold with | some (n + 1) => some n | n => n)
      ∧ (u.lightSecond.lighting.groups.get i).override
          = (match (s.lighting.groups.get i).override with
            | some v => if v.seconds ≤ 1 then none else some { v with seconds := v.seconds - 1 }
            | none => none))
    ∧ u.lightSecond.lighting.taken
        = ⟨s.sensors.reading s.sensors.map.daylight, s.lighting.luxStart, s.lighting.gain⟩
    ∧ State.GrantsOnly { u with lighting := { u.lighting with
        taken := u.lightSecond.lighting.taken
        groups := u.lighting.groups.mapIdx fun i x => x.second (u.scene i) u.lightSecond.lighting.taken } } u.lightSecond

/-- How an output follows its target, the smaller of the desired and the granted level (R135, R136, R140, R143, R144). A ramp step
moves an enabled group's output towards the target by its ramp rate and stops at it; with ramp rate 0 the output is the
target. A granted level handed is recorded as at least the floor requested, and one that falls below the output brings it down at
once; a recomputation forms the trim and the desired level, and a floor that rises above the output, or above the granted
level, takes it up at once. With ramp rate 0 the output is the target at once wherever the target has changed; that it is then
left alone where the target has not, until the next second boundary, is deduced (assumption 28). Nothing else of the record
changes. A DISABLED group is dark, with no trim (assumption 53), and makes no ramp step. -/
def Claims.OutputsRampAndFollow : Prop :=
  (∀ x y : Group, y = x.rampStep →
    (x.state = .disabled → y = x)
    ∧ (x.state ≠ .disabled → y = { x with output := y.output }
      ∧ (x.config.rampRate = 0 → y.output = min x.desired x.granted)
      ∧ (x.config.rampRate ≠ 0 → x.output < min x.desired x.granted →
          y.output = min (min x.desired x.granted) (x.output + x.config.rampRate))
      ∧ (x.config.rampRate ≠ 0 → min x.desired x.granted ≤ x.output →
          y.output = max (min x.desired x.granted) (x.output - x.config.rampRate))))
  ∧ (∀ (x y : Group) (level granted : Nat), y = x.takeGrant level → granted = max level x.floorRequest →
    y = { x with granted := granted, output := y.output } ∧ y.output ≤ granted
    ∧ (x.config.rampRate ≠ 0 → y.output = min x.output granted)
    ∧ (x.config.rampRate = 0 → min x.desired granted ≠ min x.desired x.granted → y.output = min x.desired granted)
    ∧ (x.config.rampRate = 0 → min x.desired granted = min x.desired x.granted → y.output = min x.output granted))
  ∧ ∀ (x y : Group) (sc : Scene) (d : Daylight) (base trim desired granted : Nat), y = x.recompute sc d →
    base = (if x.state = .lit then sc.level else sc.vacant) →
    trim = (if x.config.trimmed = true ∧ (x.state = .lit ∨ x.state = .vacant) ∧ d.reading.status ≠ .lost
        ∧ d.luxStart < d.reading.value.getD 0
      then min ((d.reading.value.getD 0 - d.luxStart) * d.gain / 1000) (base - sc.floor) else 0) →
    desired = max sc.floor (if x.state = .overridden then (x.override.map GroupOverride.level).getD 0 else base - trim) →
    granted = max x.granted sc.floor →
    (x.state = .disabled → y = { x with trim := 0, desired := 0, output := 0 })
    ∧ (x.state ≠ .disabled →
      y = { x with trim := trim, desired := desired, granted := granted, output := y.output }
      ∧ sc.floor ≤ y.output ∧ sc.floor ≤ y.granted
      ∧ (x.config.rampRate ≠ 0 → y.output = max x.output sc.floor)
      ∧ (x.config.rampRate = 0 → min desired granted ≠ min x.desired x.granted → y.output = min desired granted)
      ∧ (x.config.rampRate = 0 → min desired granted = min x.desired x.granted → y.output = max x.output sc.floor))

/-- HOLD_EXPIRY and GROUP_OVERRIDE_END with the second boundary they are, and how an output follows its desired level. -/
def Obligations.LampSecondsAndOutputs : Prop :=
  Claims.LampSecondsEnd ∧ Claims.LampSecondInFull ∧ Claims.OutputsRampAndFollow

/-- LIGHT_SETTINGS and GROUP_READ (R137, R146). That the base in use is absent for an OVERRIDDEN or DISABLED group is the
model's choice (assumption 37). -/
def Obligations.LightSettingsAndGroupRead : Prop :=
  (∀ (s : State) (o : Origin) (a : LightSettingsArgs) (lux gain : Nat), s.Admits .lightSettings o →
    lux = (match a.luxStart with | some v => v.toNat | none => s.lighting.luxStart) →
    gain = (match a.gain with | some v => v.toNat | none => s.lighting.gain) →
    exec (.lightSettings o (some a)) s
      = .next (State.answered { s with lighting := { s.lighting with luxStart := lux, gain := gain } } .lightSettings o
          ⟨.ok, .light lux gain⟩))
  ∧ ∀ (s : State) (o : Origin) (a : IndexArgs), s.Admits .groupRead o →
    (∀ (g : Fin 24) (x : Group), a.index.toNat = g.val → x = s.lighting.groups.get g →
      exec (.groupRead o (some a)) s = .next (s.answered .groupRead o ⟨.ok, .group
        { group := x, scene := (s.calendar.scenes.get (phaseIndex s.calendar.record.phase)).get g
          base := match x.state with
            | .lit => some (s.scene g).level
            | .vacant => some (s.scene g).vacant
            | .overridden | .disabled => none
          overrideEnd := x.override.map fun v => (s.clock.weekSecond + v.seconds) % 604800
          daylight := s.lighting.taken.reading.status }⟩))
    ∧ (23 < a.index.toNat → exec (.groupRead o (some a)) s = .next (s.answered .groupRead o ⟨.range, .bare⟩))

/-! ### Line Unit -/

/-- LINE_CONFIG (R149, R150, R151): refused RANGE by the conditions on a binding (`BindingsNamed`), then ACTIVE where the owner of the old or the
new binding is active (assumption 17); otherwise the record is replaced but for its latch, which a newly bound output
function sets, and the owners lose and gain the line after the answer; a call that leaves the binding as it was binds nothing
(assumptions 6, 51). -/
def Claims.LineConfigCall : Prop :=
  (∀ (s u : State) (o : Origin) (a : LineConfigArgs) (l : Fin 192) (m : LineMode) (b : Binding) (x : Line) (latch : Bool),
    s.Admits .lineConfig o → a.line.toNat = l.val → a.mode = some m → bindingOf a.binding = some b →
    x = s.lines.lines.get l → latch = (match s.functionOn b with | some on => on | none => x.latch) →
    u = State.answered (s.setLine l { x with config := ⟨m, a.pullUp, a.invert, b⟩, latch := latch }) .lineConfig o
      ⟨.ok, .line ⟨m, a.pullUp, a.invert, b⟩ latch⟩ →
    exec (.lineConfig o (some a)) s = .next
      (if b.mode = m ∧ (∀ k, k ≠ l → b.exclusive = true → (s.lines.lines.get k).config.binding ≠ b)
          ∧ ((s.lines.boards.get (boardOf l)).present = true ∨ b = .spareIn) then
        (if s.ownerActive x.config.binding = true ∨ s.ownerActive b = true then s.answered .lineConfig o ⟨.active, .bare⟩
        else if b = x.config.binding then u
        else (u.unbound x.config.binding).newlyBound b)
      else s.answered .lineConfig o ⟨.range, .bare⟩))
  ∧ (∀ (s : State) (o : Origin) (a : LineConfigArgs), s.Admits .lineConfig o →
    191 < a.line.toNat ∨ a.mode = none ∨ bindingOf a.binding = none →
    exec (.lineConfig o (some a)) s = .next (s.answered .lineConfig o ⟨.range, .bare⟩))
  ∧ (∀ d, bindingOf (.doorContact d) = none ↔ 31 < d.toNat) ∧ (∀ d, bindingOf (.trailer d) = none ↔ 31 < d.toNat)
  ∧ (∀ g, bindingOf (.occupancy g) = none ↔ 23 < g.toNat)
  ∧ (∀ z i, bindingOf (.heat z i) = none ↔ 7 < z.toNat ∨ i.toNat = 0 ∨ 4 < i.toNat)
  ∧ (∀ z i, bindingOf (.fan z i) = none ↔ 7 < z.toNat ∨ i.toNat = 0 ∨ 3 < i.toNat)
  ∧ (∀ c, bindingOf (.curtain c) = none ↔ 15 < c.toNat) ∧ bindingOf .noSuchFunction = none

/-- The conditions on a binding, as LINE_CONFIG judges them (R149, R150): the binding a call names where its arguments lie in
range; INPUT for the input functions and OUTPUT for the output functions; and the three functions that stand on at most one line. -/
def Claims.BindingsNamed : Prop :=
  (∀ (b : Byte) (d : Fin 32), b.toNat = d.val →
    bindingOf (.doorContact b) = some (.doorContact d) ∧ bindingOf (.trailer b) = some (.trailer d))
  ∧ (∀ (b : Byte) (g : Fin 24), b.toNat = g.val → bindingOf (.occupancy b) = some (.occupancy g))
  ∧ (∀ (b i : Byte) (z : Fin 8), b.toNat = z.val → 1 ≤ i.toNat →
    (i.toNat ≤ 4 → bindingOf (.heat b i) = some (.heat z i.toNat))
    ∧ (i.toNat ≤ 3 → bindingOf (.fan b i) = some (.fan z i.toNat)))
  ∧ (∀ (b : Byte) (c : Fin 16), b.toNat = c.val → bindingOf (.curtain b) = some (.curtain c))
  ∧ bindingOf .spareIn = some .spareIn ∧ bindingOf .spareOut = some .spareOut
  ∧ (∀ b : Binding, b.mode = .input ↔
      (∃ d, b = .doorContact d) ∨ (∃ d, b = .trailer d) ∨ (∃ g, b = .occupancy g) ∨ b = .spareIn)
  ∧ (∀ b : Binding, b.mode = .output ↔
      (∃ z i, b = .heat z i) ∨ (∃ z i, b = .fan z i) ∨ (∃ c, b = .curtain c) ∨ b = .spareOut)
  ∧ ∀ b : Binding, b.exclusive = true ↔ (∃ d, b = .doorContact d) ∨ (∃ d, b = .trailer d) ∨ ∃ g, b = .occupancy g

/-- What LINE_CONFIG judges and moves in the owners of its bindings (R131, R150, R151, R153). An owner is active: a door channel that
is not UNUSED, a group that is not DISABLED, a zone that is not OFF, a curtain that is not IDLE. A channel that loses its contact
loses its pending change; one that loses its trailer sensor is ABSENT with no settled level and no pending change; a configured
channel that gains either is initialised, its tallies kept, and its curtain re-evaluates. A group that gains an occupancy line has
its last delivery inactive. No other function's owner changes. -/
def Claims.OwnersFollowTheirLines : Prop :=
  (∀ (s : State) (d : Fin 32) (g : Fin 24) (z : Fin 8) (c : Fin 16) (i : Nat),
    s.ownerActive (.doorContact d) = decide ((s.channel d).state ≠ .unused)
    ∧ s.ownerActive (.trailer d) = decide ((s.channel d).state ≠ .unused)
    ∧ s.ownerActive (.occupancy g) = decide ((s.lighting.groups.get g).state ≠ .disabled)
    ∧ s.ownerActive (.heat z i) = decide (s.zoneMode z ≠ .off) ∧ s.ownerActive (.fan z i) = decide (s.zoneMode z ≠ .off)
    ∧ s.ownerActive (.curtain c) = decide ((s.doors.curtains.get c).state ≠ .idle)
    ∧ s.ownerActive .spareIn = false ∧ s.ownerActive .spareOut = false
    ∧ s.functionOn (.heat z i) = some (decide (i ≤ (s.budget.zones.get z).heat))
    ∧ s.functionOn (.fan z i) = some (decide (i ≤ (s.budget.zones.get z).fans))
    ∧ s.functionOn (.curtain c) = some (s.doors.curtains.get c).granted
    ∧ s.functionOn (.doorContact d) = none ∧ s.functionOn (.trailer d) = none ∧ s.functionOn (.occupancy g) = none
    ∧ s.functionOn .spareIn = none ∧ s.functionOn .spareOut = none
    ∧ s.unbound (.occupancy g) = s ∧ s.unbound (.heat z i) = s ∧ s.unbound (.fan z i) = s ∧ s.unbound (.curtain c) = s
    ∧ s.unbound .spareIn = s ∧ s.unbound .spareOut = s
    ∧ s.newlyBound (.heat z i) = s ∧ s.newlyBound (.fan z i) = s ∧ s.newlyBound (.curtain c) = s
    ∧ s.newlyBound .spareIn = s ∧ s.newlyBound .spareOut = s)
  ∧ (∀ (s : State) (d : Fin 32) (x : Channel), x = s.channel d →
    s.unbound (.doorContact d) = s.setChannel d { x with doorPending := none }
    ∧ s.unbound (.trailer d) = s.setChannel d { x with trailer := false, trailerSettled := false, trailerPending := none })
  ∧ (∀ (s t : State) (d : Fin 32) (x : Channel) (b : Binding), x = s.channel d → b = .doorContact d ∨ b = .trailer d →
    t = s.setChannel d { x with
      state := .unused, trailer := false, trailerSettled := false, doorPending := none, trailerPending := none
      interval := 0, lastEdge := none, lastOpen := none, lastClosed := none } →
    s.newlyBound b = (if x.config.configured = true then
      match x.config.curtain with
      | none => t
      | some c => t.reevaluate c
    else s))
  ∧ ∀ (s : State) (g : Fin 24) (x : Group), x = s.lighting.groups.get g → s.lines.dimmers.get g = x.output →
    s.newlyBound (.occupancy g)
      = { s with lighting := { s.lighting with groups := s.lighting.groups.set g { x with lastOccupancy := false } } }

/-- LINE_DRIVE and LINE_READ (R148, R149, R154, R155). The level of a line of a present board that has given no good scan is a
free value (assumption 15): the statement holds whatever it is. -/
def Claims.LineDriveAndRead : Prop :=
  (∀ (s : State) (o : Origin) (a : LineDriveArgs) (l : Fin 192) (x : Line), s.Admits .lineDrive o →
    a.line.toNat = l.val → x = s.lines.lines.get l →
    exec (.lineDrive o (some a)) s = .next
      (if x.config.binding = .spareOut ∨ x.config.binding = .spareIn then
        State.answered (s.setLine l { x with latch := a.on }) .lineDrive o ⟨.ok, .latch a.on⟩
      else s.answered .lineDrive o ⟨.range, .bare⟩))
  ∧ (∀ (s : State) (o : Origin) (a : LineDriveArgs), s.Admits .lineDrive o → 191 < a.line.toNat →
    exec (.lineDrive o (some a)) s = .next (s.answered .lineDrive o ⟨.range, .bare⟩))
  ∧ (∀ (s : State) (o : Origin) (a : IndexArgs) (l : Fin 192) (x : Line) (b : Board) (high : Bool), s.Admits .lineRead o →
    a.index.toNat = l.val → x = s.lines.lines.get l → b = s.lines.boards.get (boardOf l) →
    (b.present = false → high = false) →
    (∀ q, b.present = true → b.captured = some q → high = q.getLsbD (l.val % 32)) →
    (b.present = true → b.captured = none → high = Config.unscannedLevel l.val) →
    exec (.lineRead o (some a)) s = .next (s.answered .lineRead o ⟨.ok, .lineRead
      { config := x.config, latch := x.latch, high := high, active := high != x.config.invert, present := b.present
        stranded := !b.present, bad := b.bad, consecutive := b.consecutive }⟩))
  ∧ ∀ (s : State) (o : Origin) (a : IndexArgs), s.Admits .lineRead o → 191 < a.index.toNat →
    exec (.lineRead o (some a)) s = .next (s.answered .lineRead o ⟨.range, .bare⟩)

/-- LINE_CONFIG, LINE_DRIVE and LINE_READ. -/
def Obligations.LineCalls : Prop :=
  Claims.LineConfigCall ∧ Claims.BindingsNamed ∧ Claims.OwnersFollowTheirLines ∧ Claims.LineDriveAndRead

/-! ### Link Interface: flags and identity -/

/-- FLAGS_READ, FLAGS_CLEAR, FLAGS_ENABLE and IDENT (R166, R167, R169), IDENT answering the vendor code 0x2A61, the part code 240 and
the revision letter B with the board presence and the store status; and the set event (R166): a clear flag is set, with an
ATTENTION notice where its enable is on; a flag already set changes nothing. That a set event joins no notice to a queue while
a RESTART is pending is read from R170 (assumption 39). -/
def Obligations.FlagCallsAndIdent : Prop :=
  (∀ (s : State) (o : Origin), s.Admits .flagsRead o →
    exec (.flagsRead o (some ())) s = .next (s.answered .flagsRead o ⟨.ok, .flags s.links.flags s.links.enables⟩))
  ∧ (∀ (s : State) (o : Origin) (a : FlagSetArgs) (rest : BitVec 10), s.Admits .flagsClear o →
    (∀ i, rest.getLsbD i = (s.links.flags.getLsbD i && !a.flags.getLsbD i)) →
    exec (.flagsClear o (some a)) s = .next
      (State.answered { s with links := { s.links with flags := rest } } .flagsClear o
        ⟨.ok, .flags rest s.links.enables⟩))
  ∧ (∀ (s : State) (o : Origin) (a : FlagSetArgs), s.Admits .flagsEnable o →
    exec (.flagsEnable o (some a)) s = .next
      (State.answered { s with links := { s.links with enables := a.flags } } .flagsEnable o
        ⟨.ok, .flags s.links.flags a.flags⟩))
  ∧ (∀ (s : State) (o : Origin), s.Admits .ident o →
    exec (.ident o (some ())) s = .next (s.answered .ident o ⟨.ok, .ident 0x2A61 240 'B' (s.lines.boards.map fun b => b.present)
      ⟨match s.store.saving with
        | some (.commissioning ..) => some .commissioning | some (.operating ..) => some .operating | none => none,
        s.store.commStatus, s.store.operStatus⟩⟩))
  ∧ ∀ (i : LinkInterface) (f : Flag),
    (i.isSet f = true → i.raise f = i)
    ∧ (i.isSet f = false → (i.raise f).isSet f = true ∧ (∀ e, e ≠ f → (i.raise f).isSet e = i.isSet e)
      ∧ (i.isEnabled f = false ∨ i.restart ≠ none →
          (i.raise f).supervisor = i.supervisor ∧ (i.raise f).panel = i.panel)
      ∧ (i.isEnabled f = true → i.restart = none → (i.raise f).panel = i.panel ∧
          (i.supervisor.queue.length < 8 → (i.raise f).supervisor.queue
            = i.supervisor.queue ++ [⟨0xF0, 0, .notice (.attention f (i.raise f).flags i.enables)⟩])
          ∧ (8 ≤ i.supervisor.queue.length → (i.raise f).supervisor = i.supervisor)))

/-! ### Settings Store, resets and accounts -/

/-- KEY seen (R173, R174): a high level is recorded and does nothing else; a low one leaves exactly what KEY_FALL leaves
(`SavesProceed`). That the part sees KEY with STORE_SAVE, STORE_STATUS and KEY_FALL alone is the model's choice
(assumption 9). -/
def Claims.KeySeen : Prop :=
  (∀ s : State, s.seeKey true = s.setStore { s.store with key := true })
  ∧ (∀ s : State, s.power = .running → exec .keyFall s = .next (s.seeKey false))
  ∧ ∀ (s : State) (c : Instr), s.asSeen c = (match c with
      | .storeSave _ _ key => s.seeKey key
      | .storeStatus _ _ key => s.seeKey key
      | _ => s)

/-- STORE_SAVE and STORE_STATUS (R173, R175), in the state `u` in which the KEY level that came with the call has been seen:
refused RANGE, BUSY or LOCKED in that order; otherwise a snapshot of every requested table is taken and the save begins.
KEY does not matter to a save of the operating area alone. That the calls carry the KEY level seen, and that what its fall
brings comes before the answer, is the model's choice (assumptions 9, 45). -/
def Claims.StoreCalls : Prop :=
  (∀ (s u : State) (o : Origin) (a : StoreSaveArgs) (key : Bool), s.Admits .storeSave o → u = s.seeKey key →
    exec (.storeSave o (some a) key) s = .next
      (if a.commissioning = false ∧ a.operating = false then u.answered .storeSave o ⟨.range, .bare⟩
      else if u.store.saving ≠ none then u.answered .storeSave o ⟨.busy, .bare⟩
      else if a.commissioning = true ∧ key = false then u.answered .storeSave o ⟨.locked, .bare⟩
      else State.answered
        { u with store := { u.store with
            saving := some (if a.commissioning then
                .commissioning s.commissioning (if a.operating then some s.operating else none)
              else .operating s.operating .notRequested) } } .storeSave o ⟨.ok, .bare⟩))
  ∧ ∀ (s u : State) (o : Origin) (key : Bool), s.Admits .storeStatus o → u = s.seeKey key →
    exec (.storeStatus o (some ()) key) s = .next (u.answered .storeStatus o ⟨.ok, .store
      ⟨match u.store.saving with
        | some (.commissioning ..) => some .commissioning | some (.operating ..) => some .operating | none => none,
        u.store.commStatus, u.store.operStatus⟩ u.store.lastResult key⟩)

/-- AREA_WRITE_COMPLETE and KEY_FALL (R174): the area written becomes VALID where its check agrees and DAMAGED otherwise, with
STORE_DAMAGED; KEY falling spoils the commissioning write and no other; the operating area follows where it was requested,
and with the last area the result is recorded and STORE_RESULT offered, after STORE_DAMAGED where the area is DAMAGED: it joins the
end of the supervisor link's queue while there is room and no RESTART is pending (assumption 39). Nothing else changes, the working
tables among it. That AREA_WRITE_COMPLETE does nothing with no save running is the model's choice (assumption 23). -/
def Claims.SavesProceed : Prop :=
  (∀ (s t : State) (r : SaveResult), t = s.notify .supervisor (.storeResult r) →
    t = { s with links := t.links } ∧ t.links.panel = s.links.panel
    ∧ (∀ f, t.links.isSet f = s.links.isSet f)
    ∧ t.links.supervisor.queue = (if s.links.restart = none ∧ s.links.supervisor.queue.length < 8
      then s.links.supervisor.queue ++ [⟨0xF4, 0, .notice (.storeResult r)⟩] else s.links.supervisor.queue))
  ∧ ∀ (s : State) (agrees : Bool), s.power = .running →
    (∀ x next, s.store.saving = some (.commissioning x next) →
      (exec (.areaWriteComplete true) s = .next
        (match next with
        | some y => s.setStore { s.store with
            commCopy := .good x, commStatus := .valid, saving := some (.operating y .valid) }
        | none => (s.setStore { s.store with
            commCopy := .good x, commStatus := .valid, saving := none
            lastResult := some ⟨.valid, .notRequested⟩ }).notify .supervisor (.storeResult ⟨.valid, .notRequested⟩)))
      ∧ (∀ c cause key t u,
        (c, cause, key) = (Instr.areaWriteComplete false, DamageCause.check, s.store.key)
          ∨ (c, cause, key) = (Instr.keyFall, .key, false) →
        u = (s.setStore { s.store with key := key, commCopy := .spoiled, commStatus := .damaged }).raise .storeDamaged →
        t = (match next with
          | some y => u.setStore { u.store with saving := some (.operating y (.damaged cause)) }
          | none => (u.setStore { u.store with saving := none, lastResult := some ⟨.damaged cause, .notRequested⟩ }).notify
              .supervisor (.storeResult ⟨.damaged cause, .notRequested⟩)) →
        exec c s = .next t ∧ t.links.isSet .storeDamaged = true
          ∧ t.commissioning = s.commissioning ∧ t.operating = s.operating))
    ∧ (∀ y done, s.store.saving = some (.operating y done) →
      exec (.areaWriteComplete true) s = .next
        ((s.setStore { s.store with
          operCopy := .good y, operStatus := .valid, saving := none, lastResult := some ⟨done, .valid⟩ }).notify
          .supervisor (.storeResult ⟨done, .valid⟩))
      ∧ exec .keyFall s = .next (s.setStore { s.store with key := false })
      ∧ ∀ t u, u = (s.setStore { s.store with operCopy := .spoiled, operStatus := .damaged }).raise .storeDamaged →
          t = (u.setStore { u.store with saving := none, lastResult := some ⟨done, .damaged .check⟩ }).notify
            .supervisor (.storeResult ⟨done, .damaged .check⟩) →
          exec (.areaWriteComplete false) s = .next t ∧ t.links.isSet .storeDamaged = true
            ∧ t.commissioning = s.commissioning ∧ t.operating = s.operating)
    ∧ (s.store.saving = none → exec (.areaWriteComplete agrees) s = .next s
      ∧ exec .keyFall s = .next (s.setStore { s.store with key := false }))

/-- STORE_SAVE, STORE_STATUS, AREA_WRITE_COMPLETE and KEY_FALL. -/
def Obligations.StoreAndSaves : Prop :=
  Claims.KeySeen ∧ Claims.StoreCalls ∧ Claims.SavesProceed

/-- RESTART and RESET_TAKES_EFFECT (R2, R170, R177): refused BUSY while SAVING; otherwise accepted, and the reset takes effect
when the answer has been sent in full, or at once when it found no room, and not before; that a hold while the answer is being
sent does not delay it further is the model's choice (assumption 62); the clock as R2 gives. Of what the part held before, nothing but the Settings Store, the clock and the commands that wait plays a part. -/
def Claims.RestartTakesEffect : Prop :=
  (∀ (s : State) (o : Origin) (a : RestartArgs), s.Admits .restart o →
    exec (.restart o (some a)) s = .next
      (if s.store.saving ≠ none then s.answered .restart o ⟨.busy, .bare⟩
      else State.answered
        { s with links := { s.links with
            restart := some ⟨a.keepClock, o.link, decide ((s.links.link o.link).queue.length < 8)⟩ } }
        .restart o ⟨.ok, .bare⟩))
  ∧ ∀ (s : State) (boards : BitVec 6) (r : RestartPending), s.power = .running → s.links.restart = some r →
    (r.queued = false ∨ (s.links.link r.link).queue = [] →
      ∃ t, exec (.resetTakesEffect boards) s = .next t
        ∧ s.StartedUp t boards (if r.keepClock = true ∧ s.clock.running = true then s.clock else ⟨0, 0, false⟩))
    ∧ (r.queued = true → (s.links.link r.link).queue ≠ [] → exec (.resetTakesEffect boards) s = .next s)
    ∧ ∀ v : State, v.power = .running → v.links.restart = some r →
        r.queued = false ∨ (s.links.link r.link).queue = [] ∧ (v.links.link r.link).queue = [] →
        v.store = s.store → v.clock = s.clock → v.pending = s.pending →
        exec (.resetTakesEffect boards) v = exec (.resetTakesEffect boards) s

/-- POWER_ON, LOSS_OF_POWER and RESET_PIN_LOW (R2, R157, R172, R176): a power-on starts the part up from its stored areas with
the clock UNSET; a power-on, a loss of power and the RESET pin during a save leave the area being written in disagreement
with its check, and no other. Of what the part held before, nothing but the Settings Store and the commands that wait plays a
part in a power-on. That the part then stands still until a power-on is assumption 10. -/
def Claims.PowerRows : Prop :=
  ∀ (s u : State), u = { s with store := match s.store.saving with
      | some (.commissioning ..) => { s.store with commCopy := .spoiled, saving := none }
      | some (.operating ..) => { s.store with operCopy := .spoiled, saving := none }
      | none => s.store } →
    (∀ boards, ∃ t, exec (.powerOn boards) s = .next t ∧ u.StartedUp t boards ⟨0, 0, false⟩)
    ∧ exec .lossOfPower s = .next { u with power := .unsupplied }
    ∧ (s.power = .running → exec .resetPinLow s = .next { u with power := .resetHeld })
    ∧ ∀ (v : State) (boards : BitVec 6), v.store = s.store → v.pending = s.pending →
        exec (.powerOn boards) v = exec (.powerOn boards) s

/-- RESTART, RESET_TAKES_EFFECT, POWER_ON, LOSS_OF_POWER and RESET_PIN_LOW. -/
def Obligations.RestartAndPower : Prop :=
  Claims.RestartTakesEffect ∧ Claims.PowerRows

/-- SHIFT_READ (R178, R179, R182), on both links: the current or the previous summary with its duration and its energy in
units of 3,600 unit-seconds, the previous one marked absent when there is none. -/
def Obligations.ShiftRead : Prop :=
  ∀ (s : State) (o : Origin) (a : ShiftReadArgs), s.power = .running → s.links.restart = none →
    (a.which = some .current → exec (.shiftRead o (some a)) s = .next (s.answered .shiftRead o ⟨.ok, .shift
      (some ⟨s.accounts.current, s.accounts.current.phaseSeconds.sum, s.accounts.current.energy / 3600⟩)⟩))
    ∧ (∀ x, a.which = some .previous → s.accounts.previous = some x →
      exec (.shiftRead o (some a)) s
        = .next (s.answered .shiftRead o ⟨.ok, .shift (some ⟨x, x.phaseSeconds.sum, x.energy / 3600⟩)⟩))
    ∧ (a.which = some .previous → s.accounts.previous = none →
      exec (.shiftRead o (some a)) s = .next (s.answered .shiftRead o ⟨.ok, .shift none⟩))
    ∧ (a.which = none → exec (.shiftRead o (some a)) s = .next (s.answered .shiftRead o ⟨.range, .bare⟩))

/-- The Accounting Unit's second boundary (R179): the stages granted, the phase in force, the total granted and the OVERCAP
seconds added to the current summary, every counter saturating; nothing else changes. -/
def Obligations.AccountsSecond : Prop :=
  ∀ (s t : State) (c d : Summary), t = s.accountSecond → c = s.accounts.current → d = t.accounts.current →
    (∀ z, d.zones.get z = { c.zones.get z with
        heatSeconds := min 4294967295 ((c.zones.get z).heatSeconds + (s.budget.zones.get z).heat),
        fanSeconds := min 4294967295 ((c.zones.get z).fanSeconds + (s.budget.zones.get z).fans) })
    ∧ (∀ p, d.phaseSeconds.get (phaseIndex p) =
        if p = s.phase then min 4294967295 (c.phaseSeconds.get (phaseIndex p) + 1) else c.phaseSeconds.get (phaseIndex p))
    ∧ d.energy = min 4294967295 (c.energy + s.budget.total) ∧ d.peak = max c.peak (min 4294967295 s.budget.total)
    ∧ d.overcap = (if s.budget.capInForce < s.budget.reserved then min 4294967295 (c.overcap + 1) else c.overcap)
    ∧ d.start = c.start ∧ d.startRunning = c.startRunning ∧ d.startPhase = c.startPhase
    ∧ t = { s with accounts := { s.accounts with current := d } }
end

