-- ==== Sys2Proof/Laws/Tables.lean ====
section
/-! SUPPORT. The laws of the record tables: reading after a write, and reading a table built by map, fill or ofFn; and what
`largestWhere` finds. -/

namespace Sys2Proof

namespace Table
variable {n : Nat} {α β : Type}

theorem ext_get {s t : Table n α} (h : ∀ i, s.get i = t.get i) : s = t := by
  rcases s with ⟨l, hl⟩; rcases t with ⟨m, hm⟩
  congr
  apply List.ext_get (by omega)
  intro i h₁ h₂
  exact h ⟨i, by omega⟩

theorem get_eq (t : Table n α) (i : Fin n) : t.get i = t.rows[i.val]'(by rw [t.size]; exact i.isLt) := rfl

@[simp] theorem get_set_same (t : Table n α) (i : Fin n) (a : α) : (t.set i a).get i = a := by
  simp [get_eq, set]

@[simp] theorem get_set_other (t : Table n α) (i j : Fin n) (a : α) (h : i ≠ j) : (t.set i a).get j = t.get j := by
  simp [get_eq, set, Fin.val_ne_of_ne h]

theorem get_set (t : Table n α) (i j : Fin n) (a : α) : (t.set i a).get j = if i = j then a else t.get j := by
  by_cases h : i = j <;> simp [h]

@[simp] theorem get_fill (a : α) (i : Fin n) : (fill n a).get i = a := by simp [get_eq, fill]

@[simp] theorem get_ofFn (f : Fin n → α) (i : Fin n) : (ofFn f).get i = f i := by simp [get_eq, ofFn]

@[simp] theorem get_map (f : α → β) (t : Table n α) (i : Fin n) : (t.map f).get i = f (t.get i) := by
  simp [get_eq, map]

@[simp] theorem get_mapIdx (f : Fin n → α → β) (t : Table n α) (i : Fin n) :
    (t.mapIdx f).get i = f i (t.get i) := by
  simp [mapIdx]

theorem get_modify (t : Table n α) (i j : Fin n) (f : α → α) :
    (t.modify i f).get j = if i = j then f (t.get j) else t.get j := by
  by_cases h : i = j
  · subst h; simp [modify]
  · simp [modify, h]

@[simp] theorem set_get (t : Table n α) (i : Fin n) : t.set i (t.get i) = t := by
  apply ext_get; intro j; rw [get_set]; split <;> simp_all

@[simp] theorem set_set (t : Table n α) (i : Fin n) (a b : α) : (t.set i a).set i b = t.set i b := by
  apply ext_get; intro j; simp only [get_set]; split <;> rfl

@[simp] theorem mapIdx_map (t : Table n α) (f : α → α) (g : Fin n → α → β) :
    (t.map f).mapIdx g = t.mapIdx fun i x => g i (f x) := by
  apply ext_get; intro i; simp

end Table

/-- What `largestWhere` finds: a bound, a place where `p` holds unless it is 0, and none above it where `p` holds. -/
theorem largestWhere_spec (p : Nat → Bool) (n : Nat) :
    largestWhere p n ≤ n ∧ (largestWhere p n ≠ 0 → p (largestWhere p n) = true)
      ∧ ∀ i, largestWhere p n < i → i ≤ n → p i = false := by
  induction n with
  | zero => simp [largestWhere]; omega
  | succ n ih =>
    unfold largestWhere
    split
    · rename_i h; exact ⟨le_rfl, fun _ => h, fun i _ _ => by omega⟩
    · rename_i h
      refine ⟨by omega, ih.2.1, fun i a b => ?_⟩
      rcases Nat.lt_or_ge n i with k | k
      · obtain rfl : i = n + 1 := by omega
        simpa using h
      · exact ih.2.2 i a k

end Sys2Proof
end

