-- ==== Sys2Proof/Laws/State.lean ====
section
/-! SUPPORT. One lemma for each field of State and each update of it: what a record update leaves alone, and the new
value of what it writes. Every one holds by rfl, so no later proof unfolds an update. -/

namespace Sys2Proof.Machine

variable (s : State)

/-! `setGrant` -/
@[simp] theorem setGrant_power (z : Fin 8) (x : ZoneGrant) : (s.setGrant z x).power = s.power := rfl
@[simp] theorem setGrant_clock (z : Fin 8) (x : ZoneGrant) : (s.setGrant z x).clock = s.clock := rfl
@[simp] theorem setGrant_calendar (z : Fin 8) (x : ZoneGrant) : (s.setGrant z x).calendar = s.calendar := rfl
@[simp] theorem setGrant_doors (z : Fin 8) (x : ZoneGrant) : (s.setGrant z x).doors = s.doors := rfl
@[simp] theorem setGrant_sensors (z : Fin 8) (x : ZoneGrant) : (s.setGrant z x).sensors = s.sensors := rfl
@[simp] theorem setGrant_climate (z : Fin 8) (x : ZoneGrant) : (s.setGrant z x).climate = s.climate := rfl
@[simp] theorem setGrant_lighting (z : Fin 8) (x : ZoneGrant) : (s.setGrant z x).lighting = s.lighting := rfl
@[simp] theorem setGrant_lines (z : Fin 8) (x : ZoneGrant) : (s.setGrant z x).lines = s.lines := rfl
@[simp] theorem setGrant_store (z : Fin 8) (x : ZoneGrant) : (s.setGrant z x).store = s.store := rfl
@[simp] theorem setGrant_accounts (z : Fin 8) (x : ZoneGrant) : (s.setGrant z x).accounts = s.accounts := rfl
@[simp] theorem setGrant_links (z : Fin 8) (x : ZoneGrant) : (s.setGrant z x).links = s.links := rfl
@[simp] theorem setGrant_owed (z : Fin 8) (x : ZoneGrant) : (s.setGrant z x).owed = s.owed := rfl
@[simp] theorem setGrant_pending (z : Fin 8) (x : ZoneGrant) : (s.setGrant z x).pending = s.pending := rfl
@[simp] theorem setGrant_budget (z : Fin 8) (x : ZoneGrant) :
    (s.setGrant z x).budget = { s.budget with zones := s.budget.zones.set z x } := rfl

/-! `setGroupGrant` -/
@[simp] theorem setGroupGrant_power (g : Fin 24) (x : GroupGrant) : (s.setGroupGrant g x).power = s.power := rfl
@[simp] theorem setGroupGrant_clock (g : Fin 24) (x : GroupGrant) : (s.setGroupGrant g x).clock = s.clock := rfl
@[simp] theorem setGroupGrant_calendar (g : Fin 24) (x : GroupGrant) : (s.setGroupGrant g x).calendar = s.calendar := rfl
@[simp] theorem setGroupGrant_doors (g : Fin 24) (x : GroupGrant) : (s.setGroupGrant g x).doors = s.doors := rfl
@[simp] theorem setGroupGrant_sensors (g : Fin 24) (x : GroupGrant) : (s.setGroupGrant g x).sensors = s.sensors := rfl
@[simp] theorem setGroupGrant_climate (g : Fin 24) (x : GroupGrant) : (s.setGroupGrant g x).climate = s.climate := rfl
@[simp] theorem setGroupGrant_lighting (g : Fin 24) (x : GroupGrant) : (s.setGroupGrant g x).lighting = s.lighting := rfl
@[simp] theorem setGroupGrant_lines (g : Fin 24) (x : GroupGrant) : (s.setGroupGrant g x).lines = s.lines := rfl
@[simp] theorem setGroupGrant_store (g : Fin 24) (x : GroupGrant) : (s.setGroupGrant g x).store = s.store := rfl
@[simp] theorem setGroupGrant_accounts (g : Fin 24) (x : GroupGrant) : (s.setGroupGrant g x).accounts = s.accounts := rfl
@[simp] theorem setGroupGrant_links (g : Fin 24) (x : GroupGrant) : (s.setGroupGrant g x).links = s.links := rfl
@[simp] theorem setGroupGrant_owed (g : Fin 24) (x : GroupGrant) : (s.setGroupGrant g x).owed = s.owed := rfl
@[simp] theorem setGroupGrant_pending (g : Fin 24) (x : GroupGrant) : (s.setGroupGrant g x).pending = s.pending := rfl
@[simp] theorem setGroupGrant_budget (g : Fin 24) (x : GroupGrant) :
    (s.setGroupGrant g x).budget = { s.budget with groups := s.budget.groups.set g x } := rfl

/-! `setTotal` -/
@[simp] theorem setTotal_power (n : Nat) : (s.setTotal n).power = s.power := rfl
@[simp] theorem setTotal_clock (n : Nat) : (s.setTotal n).clock = s.clock := rfl
@[simp] theorem setTotal_calendar (n : Nat) : (s.setTotal n).calendar = s.calendar := rfl
@[simp] theorem setTotal_doors (n : Nat) : (s.setTotal n).doors = s.doors := rfl
@[simp] theorem setTotal_sensors (n : Nat) : (s.setTotal n).sensors = s.sensors := rfl
@[simp] theorem setTotal_climate (n : Nat) : (s.setTotal n).climate = s.climate := rfl
@[simp] theorem setTotal_lighting (n : Nat) : (s.setTotal n).lighting = s.lighting := rfl
@[simp] theorem setTotal_lines (n : Nat) : (s.setTotal n).lines = s.lines := rfl
@[simp] theorem setTotal_store (n : Nat) : (s.setTotal n).store = s.store := rfl
@[simp] theorem setTotal_accounts (n : Nat) : (s.setTotal n).accounts = s.accounts := rfl
@[simp] theorem setTotal_links (n : Nat) : (s.setTotal n).links = s.links := rfl
@[simp] theorem setTotal_owed (n : Nat) : (s.setTotal n).owed = s.owed := rfl
@[simp] theorem setTotal_pending (n : Nat) : (s.setTotal n).pending = s.pending := rfl
@[simp] theorem setTotal_budget (n : Nat) :
    (s.setTotal n).budget = { s.budget with total := n } := rfl

/-! `setReserved` -/
@[simp] theorem setReserved_power (n : Nat) : (s.setReserved n).power = s.power := rfl
@[simp] theorem setReserved_clock (n : Nat) : (s.setReserved n).clock = s.clock := rfl
@[simp] theorem setReserved_calendar (n : Nat) : (s.setReserved n).calendar = s.calendar := rfl
@[simp] theorem setReserved_doors (n : Nat) : (s.setReserved n).doors = s.doors := rfl
@[simp] theorem setReserved_sensors (n : Nat) : (s.setReserved n).sensors = s.sensors := rfl
@[simp] theorem setReserved_climate (n : Nat) : (s.setReserved n).climate = s.climate := rfl
@[simp] theorem setReserved_lighting (n : Nat) : (s.setReserved n).lighting = s.lighting := rfl
@[simp] theorem setReserved_lines (n : Nat) : (s.setReserved n).lines = s.lines := rfl
@[simp] theorem setReserved_store (n : Nat) : (s.setReserved n).store = s.store := rfl
@[simp] theorem setReserved_accounts (n : Nat) : (s.setReserved n).accounts = s.accounts := rfl
@[simp] theorem setReserved_links (n : Nat) : (s.setReserved n).links = s.links := rfl
@[simp] theorem setReserved_owed (n : Nat) : (s.setReserved n).owed = s.owed := rfl
@[simp] theorem setReserved_pending (n : Nat) : (s.setReserved n).pending = s.pending := rfl
@[simp] theorem setReserved_budget (n : Nat) :
    (s.setReserved n).budget = { s.budget with reserved := n } := rfl

/-! `setCap` -/
@[simp] theorem setCap_power (c : Option SupervisorCap) : (s.setCap c).power = s.power := rfl
@[simp] theorem setCap_clock (c : Option SupervisorCap) : (s.setCap c).clock = s.clock := rfl
@[simp] theorem setCap_calendar (c : Option SupervisorCap) : (s.setCap c).calendar = s.calendar := rfl
@[simp] theorem setCap_doors (c : Option SupervisorCap) : (s.setCap c).doors = s.doors := rfl
@[simp] theorem setCap_sensors (c : Option SupervisorCap) : (s.setCap c).sensors = s.sensors := rfl
@[simp] theorem setCap_climate (c : Option SupervisorCap) : (s.setCap c).climate = s.climate := rfl
@[simp] theorem setCap_lighting (c : Option SupervisorCap) : (s.setCap c).lighting = s.lighting := rfl
@[simp] theorem setCap_lines (c : Option SupervisorCap) : (s.setCap c).lines = s.lines := rfl
@[simp] theorem setCap_store (c : Option SupervisorCap) : (s.setCap c).store = s.store := rfl
@[simp] theorem setCap_accounts (c : Option SupervisorCap) : (s.setCap c).accounts = s.accounts := rfl
@[simp] theorem setCap_links (c : Option SupervisorCap) : (s.setCap c).links = s.links := rfl
@[simp] theorem setCap_owed (c : Option SupervisorCap) : (s.setCap c).owed = s.owed := rfl
@[simp] theorem setCap_pending (c : Option SupervisorCap) : (s.setCap c).pending = s.pending := rfl
@[simp] theorem setCap_budget (c : Option SupervisorCap) :
    (s.setCap c).budget = { s.budget with supCap := c } := rfl

/-! `setCurtain` -/
@[simp] theorem setCurtain_power (c : Fin 16) (x : Curtain) : (s.setCurtain c x).power = s.power := rfl
@[simp] theorem setCurtain_clock (c : Fin 16) (x : Curtain) : (s.setCurtain c x).clock = s.clock := rfl
@[simp] theorem setCurtain_calendar (c : Fin 16) (x : Curtain) : (s.setCurtain c x).calendar = s.calendar := rfl
@[simp] theorem setCurtain_sensors (c : Fin 16) (x : Curtain) : (s.setCurtain c x).sensors = s.sensors := rfl
@[simp] theorem setCurtain_climate (c : Fin 16) (x : Curtain) : (s.setCurtain c x).climate = s.climate := rfl
@[simp] theorem setCurtain_budget (c : Fin 16) (x : Curtain) : (s.setCurtain c x).budget = s.budget := rfl
@[simp] theorem setCurtain_lighting (c : Fin 16) (x : Curtain) : (s.setCurtain c x).lighting = s.lighting := rfl
@[simp] theorem setCurtain_lines (c : Fin 16) (x : Curtain) : (s.setCurtain c x).lines = s.lines := rfl
@[simp] theorem setCurtain_store (c : Fin 16) (x : Curtain) : (s.setCurtain c x).store = s.store := rfl
@[simp] theorem setCurtain_accounts (c : Fin 16) (x : Curtain) : (s.setCurtain c x).accounts = s.accounts := rfl
@[simp] theorem setCurtain_links (c : Fin 16) (x : Curtain) : (s.setCurtain c x).links = s.links := rfl
@[simp] theorem setCurtain_owed (c : Fin 16) (x : Curtain) : (s.setCurtain c x).owed = s.owed := rfl
@[simp] theorem setCurtain_pending (c : Fin 16) (x : Curtain) : (s.setCurtain c x).pending = s.pending := rfl
@[simp] theorem setCurtain_doors (c : Fin 16) (x : Curtain) :
    (s.setCurtain c x).doors = { s.doors with curtains := s.doors.curtains.set c x } := rfl

/-! `setChannel` -/
@[simp] theorem setChannel_power (d : Fin 32) (x : Channel) : (s.setChannel d x).power = s.power := rfl
@[simp] theorem setChannel_clock (d : Fin 32) (x : Channel) : (s.setChannel d x).clock = s.clock := rfl
@[simp] theorem setChannel_calendar (d : Fin 32) (x : Channel) : (s.setChannel d x).calendar = s.calendar := rfl
@[simp] theorem setChannel_sensors (d : Fin 32) (x : Channel) : (s.setChannel d x).sensors = s.sensors := rfl
@[simp] theorem setChannel_climate (d : Fin 32) (x : Channel) : (s.setChannel d x).climate = s.climate := rfl
@[simp] theorem setChannel_budget (d : Fin 32) (x : Channel) : (s.setChannel d x).budget = s.budget := rfl
@[simp] theorem setChannel_lighting (d : Fin 32) (x : Channel) : (s.setChannel d x).lighting = s.lighting := rfl
@[simp] theorem setChannel_lines (d : Fin 32) (x : Channel) : (s.setChannel d x).lines = s.lines := rfl
@[simp] theorem setChannel_store (d : Fin 32) (x : Channel) : (s.setChannel d x).store = s.store := rfl
@[simp] theorem setChannel_accounts (d : Fin 32) (x : Channel) : (s.setChannel d x).accounts = s.accounts := rfl
@[simp] theorem setChannel_links (d : Fin 32) (x : Channel) : (s.setChannel d x).links = s.links := rfl
@[simp] theorem setChannel_owed (d : Fin 32) (x : Channel) : (s.setChannel d x).owed = s.owed := rfl
@[simp] theorem setChannel_pending (d : Fin 32) (x : Channel) : (s.setChannel d x).pending = s.pending := rfl
@[simp] theorem setChannel_doors (d : Fin 32) (x : Channel) :
    (s.setChannel d x).doors = { s.doors with channels := s.doors.channels.set d x } := rfl

/-! `removeForecast` -/
@[simp] theorem removeForecast_power (d : Fin 32) : (s.removeForecast d).power = s.power := rfl
@[simp] theorem removeForecast_clock (d : Fin 32) : (s.removeForecast d).clock = s.clock := rfl
@[simp] theorem removeForecast_calendar (d : Fin 32) : (s.removeForecast d).calendar = s.calendar := rfl
@[simp] theorem removeForecast_sensors (d : Fin 32) : (s.removeForecast d).sensors = s.sensors := rfl
@[simp] theorem removeForecast_climate (d : Fin 32) : (s.removeForecast d).climate = s.climate := rfl
@[simp] theorem removeForecast_budget (d : Fin 32) : (s.removeForecast d).budget = s.budget := rfl
@[simp] theorem removeForecast_lighting (d : Fin 32) : (s.removeForecast d).lighting = s.lighting := rfl
@[simp] theorem removeForecast_lines (d : Fin 32) : (s.removeForecast d).lines = s.lines := rfl
@[simp] theorem removeForecast_store (d : Fin 32) : (s.removeForecast d).store = s.store := rfl
@[simp] theorem removeForecast_accounts (d : Fin 32) : (s.removeForecast d).accounts = s.accounts := rfl
@[simp] theorem removeForecast_links (d : Fin 32) : (s.removeForecast d).links = s.links := rfl
@[simp] theorem removeForecast_owed (d : Fin 32) : (s.removeForecast d).owed = s.owed := rfl
@[simp] theorem removeForecast_pending (d : Fin 32) : (s.removeForecast d).pending = s.pending := rfl

/-! `addOpenSecond` -/
@[simp] theorem addOpenSecond_power (z : Fin 8) : (s.addOpenSecond z).power = s.power := rfl
@[simp] theorem addOpenSecond_clock (z : Fin 8) : (s.addOpenSecond z).clock = s.clock := rfl
@[simp] theorem addOpenSecond_calendar (z : Fin 8) : (s.addOpenSecond z).calendar = s.calendar := rfl
@[simp] theorem addOpenSecond_sensors (z : Fin 8) : (s.addOpenSecond z).sensors = s.sensors := rfl
@[simp] theorem addOpenSecond_climate (z : Fin 8) : (s.addOpenSecond z).climate = s.climate := rfl
@[simp] theorem addOpenSecond_budget (z : Fin 8) : (s.addOpenSecond z).budget = s.budget := rfl
@[simp] theorem addOpenSecond_lighting (z : Fin 8) : (s.addOpenSecond z).lighting = s.lighting := rfl
@[simp] theorem addOpenSecond_lines (z : Fin 8) : (s.addOpenSecond z).lines = s.lines := rfl
@[simp] theorem addOpenSecond_store (z : Fin 8) : (s.addOpenSecond z).store = s.store := rfl
@[simp] theorem addOpenSecond_accounts (z : Fin 8) : (s.addOpenSecond z).accounts = s.accounts := rfl
@[simp] theorem addOpenSecond_links (z : Fin 8) : (s.addOpenSecond z).links = s.links := rfl
@[simp] theorem addOpenSecond_owed (z : Fin 8) : (s.addOpenSecond z).owed = s.owed := rfl
@[simp] theorem addOpenSecond_pending (z : Fin 8) : (s.addOpenSecond z).pending = s.pending := rfl

/-! `creditZone` -/
@[simp] theorem creditZone_power (z : Fin 8) (a b : Nat) : (s.creditZone z a b).power = s.power := rfl
@[simp] theorem creditZone_clock (z : Fin 8) (a b : Nat) : (s.creditZone z a b).clock = s.clock := rfl
@[simp] theorem creditZone_calendar (z : Fin 8) (a b : Nat) : (s.creditZone z a b).calendar = s.calendar := rfl
@[simp] theorem creditZone_doors (z : Fin 8) (a b : Nat) : (s.creditZone z a b).doors = s.doors := rfl
@[simp] theorem creditZone_sensors (z : Fin 8) (a b : Nat) : (s.creditZone z a b).sensors = s.sensors := rfl
@[simp] theorem creditZone_climate (z : Fin 8) (a b : Nat) : (s.creditZone z a b).climate = s.climate := rfl
@[simp] theorem creditZone_budget (z : Fin 8) (a b : Nat) : (s.creditZone z a b).budget = s.budget := rfl
@[simp] theorem creditZone_lighting (z : Fin 8) (a b : Nat) : (s.creditZone z a b).lighting = s.lighting := rfl
@[simp] theorem creditZone_lines (z : Fin 8) (a b : Nat) : (s.creditZone z a b).lines = s.lines := rfl
@[simp] theorem creditZone_store (z : Fin 8) (a b : Nat) : (s.creditZone z a b).store = s.store := rfl
@[simp] theorem creditZone_links (z : Fin 8) (a b : Nat) : (s.creditZone z a b).links = s.links := rfl
@[simp] theorem creditZone_owed (z : Fin 8) (a b : Nat) : (s.creditZone z a b).owed = s.owed := rfl
@[simp] theorem creditZone_pending (z : Fin 8) (a b : Nat) : (s.creditZone z a b).pending = s.pending := rfl

/-! `setNode` -/
@[simp] theorem setNode_power (n : Fin 16) (x : Node) : (s.setNode n x).power = s.power := rfl
@[simp] theorem setNode_clock (n : Fin 16) (x : Node) : (s.setNode n x).clock = s.clock := rfl
@[simp] theorem setNode_calendar (n : Fin 16) (x : Node) : (s.setNode n x).calendar = s.calendar := rfl
@[simp] theorem setNode_doors (n : Fin 16) (x : Node) : (s.setNode n x).doors = s.doors := rfl
@[simp] theorem setNode_climate (n : Fin 16) (x : Node) : (s.setNode n x).climate = s.climate := rfl
@[simp] theorem setNode_budget (n : Fin 16) (x : Node) : (s.setNode n x).budget = s.budget := rfl
@[simp] theorem setNode_lighting (n : Fin 16) (x : Node) : (s.setNode n x).lighting = s.lighting := rfl
@[simp] theorem setNode_lines (n : Fin 16) (x : Node) : (s.setNode n x).lines = s.lines := rfl
@[simp] theorem setNode_store (n : Fin 16) (x : Node) : (s.setNode n x).store = s.store := rfl
@[simp] theorem setNode_accounts (n : Fin 16) (x : Node) : (s.setNode n x).accounts = s.accounts := rfl
@[simp] theorem setNode_links (n : Fin 16) (x : Node) : (s.setNode n x).links = s.links := rfl
@[simp] theorem setNode_owed (n : Fin 16) (x : Node) : (s.setNode n x).owed = s.owed := rfl
@[simp] theorem setNode_pending (n : Fin 16) (x : Node) : (s.setNode n x).pending = s.pending := rfl
@[simp] theorem setNode_sensors (n : Fin 16) (x : Node) :
    (s.setNode n x).sensors = { s.sensors with nodes := s.sensors.nodes.set n x } := rfl

/-! `setZone` -/
@[simp] theorem setZone_power (z : Fin 8) (x : Zone) : (s.setZone z x).power = s.power := rfl
@[simp] theorem setZone_clock (z : Fin 8) (x : Zone) : (s.setZone z x).clock = s.clock := rfl
@[simp] theorem setZone_calendar (z : Fin 8) (x : Zone) : (s.setZone z x).calendar = s.calendar := rfl
@[simp] theorem setZone_doors (z : Fin 8) (x : Zone) : (s.setZone z x).doors = s.doors := rfl
@[simp] theorem setZone_sensors (z : Fin 8) (x : Zone) : (s.setZone z x).sensors = s.sensors := rfl
@[simp] theorem setZone_budget (z : Fin 8) (x : Zone) : (s.setZone z x).budget = s.budget := rfl
@[simp] theorem setZone_lighting (z : Fin 8) (x : Zone) : (s.setZone z x).lighting = s.lighting := rfl
@[simp] theorem setZone_lines (z : Fin 8) (x : Zone) : (s.setZone z x).lines = s.lines := rfl
@[simp] theorem setZone_store (z : Fin 8) (x : Zone) : (s.setZone z x).store = s.store := rfl
@[simp] theorem setZone_accounts (z : Fin 8) (x : Zone) : (s.setZone z x).accounts = s.accounts := rfl
@[simp] theorem setZone_links (z : Fin 8) (x : Zone) : (s.setZone z x).links = s.links := rfl
@[simp] theorem setZone_owed (z : Fin 8) (x : Zone) : (s.setZone z x).owed = s.owed := rfl
@[simp] theorem setZone_pending (z : Fin 8) (x : Zone) : (s.setZone z x).pending = s.pending := rfl
@[simp] theorem setZone_climate (z : Fin 8) (x : Zone) :
    (s.setZone z x).climate = { s.climate with zones := s.climate.zones.set z x } := rfl

/-! `setGroup` -/
@[simp] theorem setGroup_power (g : Fin 24) (x : Group) : (s.setGroup g x).power = s.power := rfl
@[simp] theorem setGroup_clock (g : Fin 24) (x : Group) : (s.setGroup g x).clock = s.clock := rfl
@[simp] theorem setGroup_calendar (g : Fin 24) (x : Group) : (s.setGroup g x).calendar = s.calendar := rfl
@[simp] theorem setGroup_doors (g : Fin 24) (x : Group) : (s.setGroup g x).doors = s.doors := rfl
@[simp] theorem setGroup_sensors (g : Fin 24) (x : Group) : (s.setGroup g x).sensors = s.sensors := rfl
@[simp] theorem setGroup_climate (g : Fin 24) (x : Group) : (s.setGroup g x).climate = s.climate := rfl
@[simp] theorem setGroup_budget (g : Fin 24) (x : Group) : (s.setGroup g x).budget = s.budget := rfl
@[simp] theorem setGroup_store (g : Fin 24) (x : Group) : (s.setGroup g x).store = s.store := rfl
@[simp] theorem setGroup_accounts (g : Fin 24) (x : Group) : (s.setGroup g x).accounts = s.accounts := rfl
@[simp] theorem setGroup_links (g : Fin 24) (x : Group) : (s.setGroup g x).links = s.links := rfl
@[simp] theorem setGroup_owed (g : Fin 24) (x : Group) : (s.setGroup g x).owed = s.owed := rfl
@[simp] theorem setGroup_pending (g : Fin 24) (x : Group) : (s.setGroup g x).pending = s.pending := rfl
@[simp] theorem setGroup_lighting (g : Fin 24) (x : Group) :
    (s.setGroup g x).lighting = { s.lighting with groups := s.lighting.groups.set g x } := rfl
@[simp] theorem setGroup_lines (g : Fin 24) (x : Group) :
    (s.setGroup g x).lines = { s.lines with dimmers := s.lines.dimmers.set g x.output } := rfl

/-! `followGrants` -/
@[simp] theorem followGrants_power : (s.followGrants).power = s.power := rfl
@[simp] theorem followGrants_clock : (s.followGrants).clock = s.clock := rfl
@[simp] theorem followGrants_calendar : (s.followGrants).calendar = s.calendar := rfl
@[simp] theorem followGrants_doors : (s.followGrants).doors = s.doors := rfl
@[simp] theorem followGrants_sensors : (s.followGrants).sensors = s.sensors := rfl
@[simp] theorem followGrants_climate : (s.followGrants).climate = s.climate := rfl
@[simp] theorem followGrants_budget : (s.followGrants).budget = s.budget := rfl
@[simp] theorem followGrants_lighting : (s.followGrants).lighting = s.lighting := rfl
@[simp] theorem followGrants_store : (s.followGrants).store = s.store := rfl
@[simp] theorem followGrants_accounts : (s.followGrants).accounts = s.accounts := rfl
@[simp] theorem followGrants_links : (s.followGrants).links = s.links := rfl
@[simp] theorem followGrants_owed : (s.followGrants).owed = s.owed := rfl
@[simp] theorem followGrants_pending : (s.followGrants).pending = s.pending := rfl

/-! `takeDaylight` -/
@[simp] theorem takeDaylight_power : (s.takeDaylight).power = s.power := rfl
@[simp] theorem takeDaylight_clock : (s.takeDaylight).clock = s.clock := rfl
@[simp] theorem takeDaylight_calendar : (s.takeDaylight).calendar = s.calendar := rfl
@[simp] theorem takeDaylight_doors : (s.takeDaylight).doors = s.doors := rfl
@[simp] theorem takeDaylight_sensors : (s.takeDaylight).sensors = s.sensors := rfl
@[simp] theorem takeDaylight_climate : (s.takeDaylight).climate = s.climate := rfl
@[simp] theorem takeDaylight_budget : (s.takeDaylight).budget = s.budget := rfl
@[simp] theorem takeDaylight_lines : (s.takeDaylight).lines = s.lines := rfl
@[simp] theorem takeDaylight_store : (s.takeDaylight).store = s.store := rfl
@[simp] theorem takeDaylight_accounts : (s.takeDaylight).accounts = s.accounts := rfl
@[simp] theorem takeDaylight_links : (s.takeDaylight).links = s.links := rfl
@[simp] theorem takeDaylight_owed : (s.takeDaylight).owed = s.owed := rfl
@[simp] theorem takeDaylight_pending : (s.takeDaylight).pending = s.pending := rfl

/-! `setLine` -/
@[simp] theorem setLine_power (l : Fin 192) (x : Line) : (s.setLine l x).power = s.power := rfl
@[simp] theorem setLine_clock (l : Fin 192) (x : Line) : (s.setLine l x).clock = s.clock := rfl
@[simp] theorem setLine_calendar (l : Fin 192) (x : Line) : (s.setLine l x).calendar = s.calendar := rfl
@[simp] theorem setLine_doors (l : Fin 192) (x : Line) : (s.setLine l x).doors = s.doors := rfl
@[simp] theorem setLine_sensors (l : Fin 192) (x : Line) : (s.setLine l x).sensors = s.sensors := rfl
@[simp] theorem setLine_climate (l : Fin 192) (x : Line) : (s.setLine l x).climate = s.climate := rfl
@[simp] theorem setLine_budget (l : Fin 192) (x : Line) : (s.setLine l x).budget = s.budget := rfl
@[simp] theorem setLine_lighting (l : Fin 192) (x : Line) : (s.setLine l x).lighting = s.lighting := rfl
@[simp] theorem setLine_store (l : Fin 192) (x : Line) : (s.setLine l x).store = s.store := rfl
@[simp] theorem setLine_accounts (l : Fin 192) (x : Line) : (s.setLine l x).accounts = s.accounts := rfl
@[simp] theorem setLine_links (l : Fin 192) (x : Line) : (s.setLine l x).links = s.links := rfl
@[simp] theorem setLine_owed (l : Fin 192) (x : Line) : (s.setLine l x).owed = s.owed := rfl
@[simp] theorem setLine_pending (l : Fin 192) (x : Line) : (s.setLine l x).pending = s.pending := rfl
@[simp] theorem setLine_lines (l : Fin 192) (x : Line) :
    (s.setLine l x).lines = { s.lines with lines := s.lines.lines.set l x } := rfl

/-! `setCalendar` -/
@[simp] theorem setCalendar_power (c : Calendar) : (s.setCalendar c).power = s.power := rfl
@[simp] theorem setCalendar_clock (c : Calendar) : (s.setCalendar c).clock = s.clock := rfl
@[simp] theorem setCalendar_doors (c : Calendar) : (s.setCalendar c).doors = s.doors := rfl
@[simp] theorem setCalendar_sensors (c : Calendar) : (s.setCalendar c).sensors = s.sensors := rfl
@[simp] theorem setCalendar_climate (c : Calendar) : (s.setCalendar c).climate = s.climate := rfl
@[simp] theorem setCalendar_budget (c : Calendar) : (s.setCalendar c).budget = s.budget := rfl
@[simp] theorem setCalendar_lighting (c : Calendar) : (s.setCalendar c).lighting = s.lighting := rfl
@[simp] theorem setCalendar_lines (c : Calendar) : (s.setCalendar c).lines = s.lines := rfl
@[simp] theorem setCalendar_store (c : Calendar) : (s.setCalendar c).store = s.store := rfl
@[simp] theorem setCalendar_accounts (c : Calendar) : (s.setCalendar c).accounts = s.accounts := rfl
@[simp] theorem setCalendar_links (c : Calendar) : (s.setCalendar c).links = s.links := rfl
@[simp] theorem setCalendar_owed (c : Calendar) : (s.setCalendar c).owed = s.owed := rfl
@[simp] theorem setCalendar_pending (c : Calendar) : (s.setCalendar c).pending = s.pending := rfl
@[simp] theorem setCalendar_calendar (c : Calendar) :
    (s.setCalendar c).calendar = c := rfl

/-! `setStore` -/
@[simp] theorem setStore_power (x : Store) : (s.setStore x).power = s.power := rfl
@[simp] theorem setStore_clock (x : Store) : (s.setStore x).clock = s.clock := rfl
@[simp] theorem setStore_calendar (x : Store) : (s.setStore x).calendar = s.calendar := rfl
@[simp] theorem setStore_doors (x : Store) : (s.setStore x).doors = s.doors := rfl
@[simp] theorem setStore_sensors (x : Store) : (s.setStore x).sensors = s.sensors := rfl
@[simp] theorem setStore_climate (x : Store) : (s.setStore x).climate = s.climate := rfl
@[simp] theorem setStore_budget (x : Store) : (s.setStore x).budget = s.budget := rfl
@[simp] theorem setStore_lighting (x : Store) : (s.setStore x).lighting = s.lighting := rfl
@[simp] theorem setStore_lines (x : Store) : (s.setStore x).lines = s.lines := rfl
@[simp] theorem setStore_accounts (x : Store) : (s.setStore x).accounts = s.accounts := rfl
@[simp] theorem setStore_links (x : Store) : (s.setStore x).links = s.links := rfl
@[simp] theorem setStore_owed (x : Store) : (s.setStore x).owed = s.owed := rfl
@[simp] theorem setStore_pending (x : Store) : (s.setStore x).pending = s.pending := rfl
@[simp] theorem setStore_store (x : Store) :
    (s.setStore x).store = x := rfl

/-! `setLink` -/
@[simp] theorem setLink_power (l : Link) (x : LinkState) : (s.setLink l x).power = s.power := rfl
@[simp] theorem setLink_clock (l : Link) (x : LinkState) : (s.setLink l x).clock = s.clock := rfl
@[simp] theorem setLink_calendar (l : Link) (x : LinkState) : (s.setLink l x).calendar = s.calendar := rfl
@[simp] theorem setLink_doors (l : Link) (x : LinkState) : (s.setLink l x).doors = s.doors := rfl
@[simp] theorem setLink_sensors (l : Link) (x : LinkState) : (s.setLink l x).sensors = s.sensors := rfl
@[simp] theorem setLink_climate (l : Link) (x : LinkState) : (s.setLink l x).climate = s.climate := rfl
@[simp] theorem setLink_budget (l : Link) (x : LinkState) : (s.setLink l x).budget = s.budget := rfl
@[simp] theorem setLink_lighting (l : Link) (x : LinkState) : (s.setLink l x).lighting = s.lighting := rfl
@[simp] theorem setLink_lines (l : Link) (x : LinkState) : (s.setLink l x).lines = s.lines := rfl
@[simp] theorem setLink_store (l : Link) (x : LinkState) : (s.setLink l x).store = s.store := rfl
@[simp] theorem setLink_accounts (l : Link) (x : LinkState) : (s.setLink l x).accounts = s.accounts := rfl
@[simp] theorem setLink_owed (l : Link) (x : LinkState) : (s.setLink l x).owed = s.owed := rfl
@[simp] theorem setLink_pending (l : Link) (x : LinkState) : (s.setLink l x).pending = s.pending := rfl
@[simp] theorem setLink_links (l : Link) (x : LinkState) :
    (s.setLink l x).links = s.links.setLink l x := rfl

/-! `setReceiver` -/
@[simp] theorem setReceiver_power (l : Link) (r : Receiver) : (s.setReceiver l r).power = s.power := rfl
@[simp] theorem setReceiver_clock (l : Link) (r : Receiver) : (s.setReceiver l r).clock = s.clock := rfl
@[simp] theorem setReceiver_calendar (l : Link) (r : Receiver) : (s.setReceiver l r).calendar = s.calendar := rfl
@[simp] theorem setReceiver_doors (l : Link) (r : Receiver) : (s.setReceiver l r).doors = s.doors := rfl
@[simp] theorem setReceiver_sensors (l : Link) (r : Receiver) : (s.setReceiver l r).sensors = s.sensors := rfl
@[simp] theorem setReceiver_climate (l : Link) (r : Receiver) : (s.setReceiver l r).climate = s.climate := rfl
@[simp] theorem setReceiver_budget (l : Link) (r : Receiver) : (s.setReceiver l r).budget = s.budget := rfl
@[simp] theorem setReceiver_lighting (l : Link) (r : Receiver) : (s.setReceiver l r).lighting = s.lighting := rfl
@[simp] theorem setReceiver_lines (l : Link) (r : Receiver) : (s.setReceiver l r).lines = s.lines := rfl
@[simp] theorem setReceiver_store (l : Link) (r : Receiver) : (s.setReceiver l r).store = s.store := rfl
@[simp] theorem setReceiver_accounts (l : Link) (r : Receiver) : (s.setReceiver l r).accounts = s.accounts := rfl
@[simp] theorem setReceiver_owed (l : Link) (r : Receiver) : (s.setReceiver l r).owed = s.owed := rfl
@[simp] theorem setReceiver_pending (l : Link) (r : Receiver) : (s.setReceiver l r).pending = s.pending := rfl

/-! `raise` -/
@[simp] theorem raise_power (f : Flag) : (s.raise f).power = s.power := rfl
@[simp] theorem raise_clock (f : Flag) : (s.raise f).clock = s.clock := rfl
@[simp] theorem raise_calendar (f : Flag) : (s.raise f).calendar = s.calendar := rfl
@[simp] theorem raise_doors (f : Flag) : (s.raise f).doors = s.doors := rfl
@[simp] theorem raise_sensors (f : Flag) : (s.raise f).sensors = s.sensors := rfl
@[simp] theorem raise_climate (f : Flag) : (s.raise f).climate = s.climate := rfl
@[simp] theorem raise_budget (f : Flag) : (s.raise f).budget = s.budget := rfl
@[simp] theorem raise_lighting (f : Flag) : (s.raise f).lighting = s.lighting := rfl
@[simp] theorem raise_lines (f : Flag) : (s.raise f).lines = s.lines := rfl
@[simp] theorem raise_store (f : Flag) : (s.raise f).store = s.store := rfl
@[simp] theorem raise_accounts (f : Flag) : (s.raise f).accounts = s.accounts := rfl
@[simp] theorem raise_owed (f : Flag) : (s.raise f).owed = s.owed := rfl
@[simp] theorem raise_pending (f : Flag) : (s.raise f).pending = s.pending := rfl
@[simp] theorem raise_links (f : Flag) :
    (s.raise f).links = s.links.raise f := rfl

/-! `notify` -/
@[simp] theorem notify_power (l : Link) (n : Notice) : (s.notify l n).power = s.power := rfl
@[simp] theorem notify_clock (l : Link) (n : Notice) : (s.notify l n).clock = s.clock := rfl
@[simp] theorem notify_calendar (l : Link) (n : Notice) : (s.notify l n).calendar = s.calendar := rfl
@[simp] theorem notify_doors (l : Link) (n : Notice) : (s.notify l n).doors = s.doors := rfl
@[simp] theorem notify_sensors (l : Link) (n : Notice) : (s.notify l n).sensors = s.sensors := rfl
@[simp] theorem notify_climate (l : Link) (n : Notice) : (s.notify l n).climate = s.climate := rfl
@[simp] theorem notify_budget (l : Link) (n : Notice) : (s.notify l n).budget = s.budget := rfl
@[simp] theorem notify_lighting (l : Link) (n : Notice) : (s.notify l n).lighting = s.lighting := rfl
@[simp] theorem notify_lines (l : Link) (n : Notice) : (s.notify l n).lines = s.lines := rfl
@[simp] theorem notify_store (l : Link) (n : Notice) : (s.notify l n).store = s.store := rfl
@[simp] theorem notify_accounts (l : Link) (n : Notice) : (s.notify l n).accounts = s.accounts := rfl
@[simp] theorem notify_owed (l : Link) (n : Notice) : (s.notify l n).owed = s.owed := rfl
@[simp] theorem notify_pending (l : Link) (n : Notice) : (s.notify l n).pending = s.pending := rfl
@[simp] theorem notify_links (l : Link) (n : Notice) :
    (s.notify l n).links = s.links.notify l n := rfl

/-! `answer` -/
@[simp] theorem answer_power (k : CallKind) (o : Origin) (r : Reply) : (s.answer k o r).power = s.power := rfl
@[simp] theorem answer_clock (k : CallKind) (o : Origin) (r : Reply) : (s.answer k o r).clock = s.clock := rfl
@[simp] theorem answer_calendar (k : CallKind) (o : Origin) (r : Reply) : (s.answer k o r).calendar = s.calendar := rfl
@[simp] theorem answer_doors (k : CallKind) (o : Origin) (r : Reply) : (s.answer k o r).doors = s.doors := rfl
@[simp] theorem answer_sensors (k : CallKind) (o : Origin) (r : Reply) : (s.answer k o r).sensors = s.sensors := rfl
@[simp] theorem answer_climate (k : CallKind) (o : Origin) (r : Reply) : (s.answer k o r).climate = s.climate := rfl
@[simp] theorem answer_budget (k : CallKind) (o : Origin) (r : Reply) : (s.answer k o r).budget = s.budget := rfl
@[simp] theorem answer_lighting (k : CallKind) (o : Origin) (r : Reply) : (s.answer k o r).lighting = s.lighting := rfl
@[simp] theorem answer_lines (k : CallKind) (o : Origin) (r : Reply) : (s.answer k o r).lines = s.lines := rfl
@[simp] theorem answer_store (k : CallKind) (o : Origin) (r : Reply) : (s.answer k o r).store = s.store := rfl
@[simp] theorem answer_accounts (k : CallKind) (o : Origin) (r : Reply) : (s.answer k o r).accounts = s.accounts := rfl
@[simp] theorem answer_owed (k : CallKind) (o : Origin) (r : Reply) : (s.answer k o r).owed = s.owed := rfl
@[simp] theorem answer_pending (k : CallKind) (o : Origin) (r : Reply) : (s.answer k o r).pending = s.pending := rfl
@[simp] theorem answer_links (k : CallKind) (o : Origin) (r : Reply) :
    (s.answer k o r).links = s.links.offer o.link ⟨kindCode k + 0x80, o.tag, .answer r⟩ := rfl

/-! Reading a table back after one of its rows is written. -/
theorem setChannel_row (d e : Fin 32) (x : Channel) :
    (s.setChannel d x).doors.channels.get e = if d = e then x else s.doors.channels.get e := Table.get_set _ _ _ _
theorem setCurtain_row (d e : Fin 16) (x : Curtain) :
    (s.setCurtain d x).doors.curtains.get e = if d = e then x else s.doors.curtains.get e := Table.get_set _ _ _ _
theorem setGrant_row (d e : Fin 8) (x : ZoneGrant) :
    (s.setGrant d x).budget.zones.get e = if d = e then x else s.budget.zones.get e := Table.get_set _ _ _ _
theorem setGroupGrant_row (d e : Fin 24) (x : GroupGrant) :
    (s.setGroupGrant d x).budget.groups.get e = if d = e then x else s.budget.groups.get e := Table.get_set _ _ _ _
theorem setNode_row (d e : Fin 16) (x : Node) :
    (s.setNode d x).sensors.nodes.get e = if d = e then x else s.sensors.nodes.get e := Table.get_set _ _ _ _
theorem setZone_row (d e : Fin 8) (x : Zone) :
    (s.setZone d x).climate.zones.get e = if d = e then x else s.climate.zones.get e := Table.get_set _ _ _ _
theorem setGroup_row (d e : Fin 24) (x : Group) :
    (s.setGroup d x).lighting.groups.get e = if d = e then x else s.lighting.groups.get e := Table.get_set _ _ _ _
theorem setLine_row (d e : Fin 192) (x : Line) :
    (s.setLine d x).lines.lines.get e = if d = e then x else s.lines.lines.get e := Table.get_set _ _ _ _

end Sys2Proof.Machine
end

