-- ==== Sys2Proof/Laws/Links.lean ====
section
/-! SUPPORT. What the operations over the links and the flags can do: an offer joins or is lost (R163), a set event sets one
flag and may offer one notice (R166), and a call taken is answered once on its own link (R162). -/

namespace Sys2Proof.Machine

/-! ### One link -/

@[simp] theorem LinkInterface.link_setLink_same (i : LinkInterface) (l : Link) (x : LinkState) :
    (i.setLink l x).link l = x := by cases l <;> rfl

@[simp] theorem LinkInterface.link_setLink_other (i : LinkInterface) {l m : Link} (x : LinkState) (h : l ≠ m) :
    (i.setLink l x).link m = i.link m := by cases l <;> cases m <;> first | rfl | exact absurd rfl h

theorem LinkInterface.link_setLink (i : LinkInterface) (l m : Link) (x : LinkState) :
    (i.setLink l x).link m = if l = m then x else i.link m := by
  by_cases h : l = m <;> simp [h]

@[simp] theorem LinkInterface.setLink_flags (i : LinkInterface) (l : Link) (x : LinkState) :
    (i.setLink l x).flags = i.flags := by cases l <;> rfl

@[simp] theorem LinkInterface.setLink_enables (i : LinkInterface) (l : Link) (x : LinkState) :
    (i.setLink l x).enables = i.enables := by cases l <;> rfl

@[simp] theorem LinkInterface.setLink_restart (i : LinkInterface) (l : Link) (x : LinkState) :
    (i.setLink l x).restart = i.restart := by cases l <;> rfl

/-- An offer leaves the receiver and the hold as they were. -/
@[simp] theorem LinkState.offer_receiver (x : LinkState) (f : Frame) : (x.offer f).receiver = x.receiver := by
  unfold LinkState.offer; split <;> rfl

@[simp] theorem LinkState.offer_held (x : LinkState) (f : Frame) : (x.offer f).held = x.held := by
  unfold LinkState.offer; split <;> rfl

/-- A frame joins the end of a queue that has room and is lost otherwise (R163). -/
theorem LinkState.offer_queue (x : LinkState) (f : Frame) :
    (x.offer f).queue = if x.queue.length < Config.queueFrames then x.queue ++ [f] else x.queue := by
  unfold LinkState.offer; split <;> rfl

theorem LinkState.offer_bounded (x : LinkState) (f : Frame) (h : x.queue.length ≤ Config.queueFrames) :
    (x.offer f).queue.length ≤ Config.queueFrames := by
  rw [LinkState.offer_queue]; split
  · simp; omega
  · exact h

theorem LinkInterface.Grows.refl (a : LinkInterface) : a.Grows a := ⟨id, fun _ => id, fun _ => rfl, fun _ => rfl, rfl, rfl⟩

theorem LinkInterface.Grows.trans {a b c : LinkInterface} (h : a.Grows b) (k : b.Grows c) : a.Grows c :=
  ⟨fun x => k.queues (h.queues x), fun f x => k.flags f (h.flags f x),
   fun l => (k.receiver l).trans (h.receiver l), fun l => (k.held l).trans (h.held l),
   k.enables.trans h.enables, k.restart.trans h.restart⟩

/-- One link's queue replaced by a bounded one, its receiver and hold kept, grows. -/
theorem LinkInterface.grows_setLink (i : LinkInterface) (l : Link) (x : LinkState)
    (hq : (i.link l).queue.length ≤ Config.queueFrames → x.queue.length ≤ Config.queueFrames)
    (hr : x.receiver = (i.link l).receiver) (hh : x.held = (i.link l).held) : i.Grows (i.setLink l x) := by
  refine ⟨fun h m => ?_, fun f h => ?_, fun m => ?_, fun m => ?_, by simp, by simp⟩
  · rw [LinkInterface.link_setLink]; split
    · exact hq (h l)
    · exact h m
  · simpa [LinkInterface.isSet] using h
  · rw [LinkInterface.link_setLink]; split
    · rename_i e; subst e; exact hr
    · rfl
  · rw [LinkInterface.link_setLink]; split
    · rename_i e; subst e; exact hh
    · rfl

theorem LinkInterface.grows_offer (i : LinkInterface) (l : Link) (f : Frame) : i.Grows (i.offer l f) :=
  i.grows_setLink l _ (fun h => LinkState.offer_bounded _ f h) (by simp) (by simp)

theorem LinkState.offerAll_receiver (fs : List Frame) (x : LinkState) : (x.offerAll fs).receiver = x.receiver := by
  induction fs generalizing x with
  | nil => rfl
  | cons f fs ih => exact (ih (x.offer f)).trans (by simp)

theorem LinkState.offerAll_held (fs : List Frame) (x : LinkState) : (x.offerAll fs).held = x.held := by
  induction fs generalizing x with
  | nil => rfl
  | cons f fs ih => exact (ih (x.offer f)).trans (by simp)

theorem LinkState.offerAll_bounded (fs : List Frame) (x : LinkState) (h : x.queue.length ≤ Config.queueFrames) :
    (x.offerAll fs).queue.length ≤ Config.queueFrames := by
  induction fs generalizing x with
  | nil => exact h
  | cons f fs ih => exact ih (x.offer f) (x.offer_bounded f h)

theorem LinkInterface.grows_notify (i : LinkInterface) (l : Link) (n : Notice) : i.Grows (i.notify l n) := by
  unfold LinkInterface.notify; split
  · exact .refl i
  · exact i.grows_offer l _

/-! ### Flags -/

/-- A flag's place is below ten, and no two flags share a place (R166). -/
theorem flagIndex_lt (f : Flag) : flagIndex f < 10 := by cases f <;> decide

theorem flagIndex_injective {f g : Flag} (h : flagIndex f = flagIndex g) : f = g := by
  cases f <;> cases g <;> first | rfl | (exact absurd h (by decide))

theorem flagBit_getLsbD (f g : Flag) : (flagBit f).getLsbD (flagIndex g) = decide (f = g) := by
  cases f <;> cases g <;> decide

/-- The flags after a set event: the flag it names is set, every other is as it was (R166). -/
theorem LinkInterface.isSet_raise (i : LinkInterface) (f g : Flag) :
    (i.raise f).isSet g = (i.isSet g || decide (f = g)) := by
  unfold LinkInterface.raise
  split
  · rename_i h
    by_cases e : f = g
    · subst e; simp [h]
    · simp [e]
  · have key : ∀ j : LinkInterface, j.flags = i.flags ||| flagBit f → j.isSet g = (i.isSet g || decide (f = g)) := by
      intro j hj; simp [LinkInterface.isSet, hj, flagBit_getLsbD]
    dsimp only
    split
    · apply key; unfold LinkInterface.notify LinkInterface.offer; split <;> simp
    · exact key _ rfl

/-- A set flag's bit joins the flag set and nothing else of the Link Interface changes. -/
theorem LinkInterface.grows_setBit (i : LinkInterface) (f : Flag) :
    i.Grows { i with flags := i.flags ||| flagBit f } where
  queues h l := by cases l <;> first | exact h .supervisor | exact h .panel
  flags g h := by
    simp only [LinkInterface.isSet, BitVec.getLsbD_or] at h ⊢
    simp [h]
  receiver l := by cases l <;> rfl
  held l := by cases l <;> rfl
  enables := rfl
  restart := rfl

theorem LinkInterface.grows_raise (i : LinkInterface) (f : Flag) : i.Grows (i.raise f) := by
  unfold LinkInterface.raise
  split
  · exact .refl i
  · dsimp only
    split
    · exact (i.grows_setBit f).trans (LinkInterface.grows_notify _ _ _)
    · exact i.grows_setBit f

end Sys2Proof.Machine
end

