-- ==== Sys2Proof/Laws/Frames.lean ====
section
/-! SUPPORT. What a pass, the services between passes, the exchange of lighting requests and a control cycle leave alone:
one lemma for each shared operation, all of them about the two frames of Safety.lean. -/

namespace Sys2Proof.Machine

variable {s t u : State}

/-! ### The two frames are preorders -/

theorem State.CycleOnly.refl (s : State) : s.CycleOnly s := by
  constructor <;> simp [LinkInterface.Grows.refl]

/-- Whether a binding is an owned output function does not depend on the state (R150, R153). -/
theorem State.functionOn_none (s t : State) (b : Binding) : s.functionOn b = none ↔ t.functionOn b = none := by
  cases b <;> simp [State.functionOn]

theorem State.CycleOnly.trans (h : s.CycleOnly t) (k : t.CycleOnly u) : s.CycleOnly u := by
  have hf := k.forecasts.trans h.forecasts
  have hl := h.links.trans k.links
  have hx : ∀ l, (s.lines.lines.get l).config.mode = .input ∨ s.functionOn (s.lines.lines.get l).config.binding = none →
      (u.lines.lines.get l).latch = (s.lines.lines.get l).latch := fun l c =>
    (k.latches l (by rw [(h.lines l).1]; exact c.imp_right (s.functionOn_none t _).1)).trans (h.latches l c)
  rcases h with ⟨_, _, _, _, _, _, _, _, _, _, _, _, _, _, _, _, _, _, _, _, _, _, _, _, _⟩
  rcases k with ⟨_, _, _, _, _, _, _, _, _, _, _, _, _, _, _, _, _, _, _, _, _, _, _, _, _⟩
  constructor <;> first | assumption | simp_all

theorem State.GrantsOnly.refl (s : State) : s.GrantsOnly s := by
  constructor <;> simp [State.CycleOnly.refl]

theorem State.GrantsOnly.trans (h : s.GrantsOnly t) (k : t.GrantsOnly u) : s.GrantsOnly u := by
  have hc := h.toCycleOnly.trans k.toCycleOnly
  rcases h with ⟨_, _, _, _, _, _⟩
  rcases k with ⟨_, _, _, _, _, _⟩
  constructor <;> first | assumption | simp_all

/-- A thing done for every member of a list keeps a preorder that doing it once keeps. -/
theorem foldl_keeps {α β : Type} (R : α → α → Prop) (refl : ∀ a, R a a) (trans : ∀ {a b c}, R a b → R b c → R a c)
    (f : α → β → α) (step : ∀ a b, R a (f a b)) (l : List β) (a : α) : R a (l.foldl f a) := by
  induction l generalizing a with
  | nil => exact refl a
  | cons b l ih => exact trans (step a b) (ih (f a b))

theorem State.GrantsOnly.forEach {n : Nat} {f : Fin n → State → State} (step : ∀ i s, State.GrantsOnly s (f i s))
    (s : State) : s.GrantsOnly (s.forEach n f) :=
  foldl_keeps State.GrantsOnly .refl .trans _ (fun s i => step i s) _ s

theorem State.CycleOnly.forEach {n : Nat} {f : Fin n → State → State} (step : ∀ i s, State.CycleOnly s (f i s))
    (s : State) : s.CycleOnly (s.forEach n f) :=
  foldl_keeps State.CycleOnly .refl .trans _ (fun s i => step i s) _ s

/-! ### Single updates -/

/-- The allocator's figures other than its settings and the last demand set. -/
theorem State.grantsOnly_budget (s : State) (a : Allocator)
    (h : a.phaseCap = s.budget.phaseCap ∧ a.supCap = s.budget.supCap ∧ a.ratings = s.budget.ratings
      ∧ a.minOn = s.budget.minOn ∧ a.minOff = s.budget.minOff ∧ a.demand = s.budget.demand) :
    s.GrantsOnly { s with budget := a } := by
  obtain ⟨h₁, h₂, h₃, h₄, h₅, h₆⟩ := h
  constructor
  · constructor <;> simp [LinkInterface.Grows.refl, *]
  all_goals simp [*]

theorem State.grantsOnly_setGrant (s : State) (z : Fin 8) (g : ZoneGrant) : s.GrantsOnly (s.setGrant z g) :=
  s.grantsOnly_budget _ ⟨rfl, rfl, rfl, rfl, rfl, rfl⟩

theorem State.grantsOnly_setGroupGrant (s : State) (g : Fin 24) (x : GroupGrant) : s.GrantsOnly (s.setGroupGrant g x) :=
  s.grantsOnly_budget _ ⟨rfl, rfl, rfl, rfl, rfl, rfl⟩

theorem State.grantsOnly_setTotal (s : State) (n : Nat) : s.GrantsOnly (s.setTotal n) :=
  s.grantsOnly_budget _ ⟨rfl, rfl, rfl, rfl, rfl, rfl⟩

theorem State.grantsOnly_setReserved (s : State) (n : Nat) : s.GrantsOnly (s.setReserved n) :=
  s.grantsOnly_budget _ ⟨rfl, rfl, rfl, rfl, rfl, rfl⟩

/-- The curtains' granted fields alone. -/
theorem State.grantsOnly_curtains (s : State) (x : Table 16 Curtain)
    (h : ∀ c, (x.get c).config = (s.doors.curtains.get c).config ∧ (x.get c).state = (s.doors.curtains.get c).state
      ∧ (x.get c).remaining = (s.doors.curtains.get c).remaining) :
    s.GrantsOnly { s with doors := { s.doors with curtains := x } } := by
  constructor
  · constructor <;> simp [LinkInterface.Grows.refl, h]
  all_goals simp [h]

theorem State.grantsOnly_setGranted (s : State) (c : Fin 16) (b : Bool) :
    s.GrantsOnly (s.setCurtain c { s.doors.curtains.get c with granted := b }) :=
  s.grantsOnly_curtains _ fun d => by rw [Table.get_set]; split <;> simp_all

/-- The latches of lines bound to an owned output function, and the dimmer channels, alone. -/
theorem State.grantsOnly_lines (s : State) (x : Lines) (hb : x.boards = s.lines.boards)
    (h : ∀ l, (x.lines.get l).config = (s.lines.lines.get l).config ∧ (x.lines.get l).driven = (s.lines.lines.get l).driven)
    (hl : ∀ l, (s.lines.lines.get l).config.mode = .input ∨ s.functionOn (s.lines.lines.get l).config.binding = none →
      (x.lines.get l).latch = (s.lines.lines.get l).latch) :
    s.GrantsOnly { s with lines := x } := by
  constructor
  · constructor <;> first | exact hl | simp [LinkInterface.Grows.refl, h, hb]
  all_goals simp

theorem State.grantsOnly_followGrants (s : State) : s.GrantsOnly s.followGrants :=
  s.grantsOnly_lines _ rfl
    (fun l => by simp only [Table.get_map]; split <;> simp)
    (fun l h => by simp only [Table.get_map]; split <;> simp_all)

theorem State.grantsOnly_links (s : State) (x : LinkInterface) (h : s.links.Grows x) : s.GrantsOnly { s with links := x } := by
  constructor
  · constructor <;> simp [h]
  all_goals simp

theorem State.grantsOnly_raise (s : State) (f : Flag) : s.GrantsOnly (s.raise f) :=
  s.grantsOnly_links _ (s.links.grows_raise f)

theorem State.grantsOnly_raiseIf (s : State) (c : Bool) (f : Flag) : s.GrantsOnly (s.raiseIf c f) := by
  unfold State.raiseIf; split
  · exact s.grantsOnly_raise f
  · exact .refl s

theorem State.grantsOnly_notify (s : State) (l : Link) (n : Notice) : s.GrantsOnly (s.notify l n) :=
  s.grantsOnly_links _ (s.links.grows_notify l n)

/-! ### The Load Allocator -/

theorem State.grantsOnly_pass (s : State) : s.GrantsOnly s.pass := by
  refine .trans ?_ (State.grantsOnly_followGrants _)
  refine .trans (s.grantsOnly_budget s.passBudget ⟨rfl, rfl, rfl, rfl, rfl, rfl⟩) ?_
  refine .trans (State.grantsOnly_curtains _
    (s.doors.curtains.mapIdx fun c x => { x with granted := s.passGrants.curtains.get c }) fun c => by simp) ?_
  refine State.grantsOnly_links _ _ ?_
  dsimp only
  split
  · exact LinkInterface.grows_raise _ _
  · exact .refl _

theorem State.grantsOnly_tryCurtain (s : State) (c : Fin 16) : s.GrantsOnly (s.tryCurtain c) := by
  unfold State.tryCurtain; dsimp only; split
  · exact (s.grantsOnly_setGranted c true).trans (State.grantsOnly_setTotal _ _)
  · exact .refl s

theorem State.grantsOnly_retryCurtains (s : State) : s.GrantsOnly s.retryCurtains :=
  (State.GrantsOnly.forEach (fun c s => s.grantsOnly_tryCurtain c) s).trans (State.grantsOnly_followGrants _)

theorem State.grantsOnly_curtainDemand (s : State) (c : Fin 16) : s.GrantsOnly (s.curtainDemand c) :=
  (s.grantsOnly_tryCurtain c).trans (State.grantsOnly_followGrants _)

theorem State.grantsOnly_curtainRelease (s : State) (c : Fin 16) : s.GrantsOnly (s.curtainRelease c) := by
  unfold State.curtainRelease; dsimp only; split
  · exact ((s.grantsOnly_setGranted c false).trans (State.grantsOnly_setTotal _ _)).trans
      (State.grantsOnly_retryCurtains _)
  · exact .refl s

theorem State.grantsOnly_handCurtain (s : State) (c : Fin 16) (h : CurtainHand) : s.GrantsOnly (s.handCurtain c h) := by
  cases h
  · exact .refl s
  · exact s.grantsOnly_curtainDemand c
  · exact s.grantsOnly_curtainRelease c

theorem State.grantsOnly_stageCheck (s : State) (z : Fin 8) : s.GrantsOnly (s.stageCheck z) := by
  unfold State.stageCheck; dsimp only; split
  · exact (((s.grantsOnly_setGrant z _).trans (State.grantsOnly_setTotal _ _)).trans
      (State.grantsOnly_setReserved _ _)).trans (State.grantsOnly_retryCurtains _)
  · exact .refl s

theorem State.grantsOnly_stageChecks (s : State) : s.GrantsOnly s.stageChecks :=
  .forEach (fun z s => s.grantsOnly_stageCheck z) s

theorem State.grantsOnly_stageSecond (s : State) (z : Fin 8) : s.GrantsOnly (s.stageSecond z) :=
  (s.grantsOnly_setGrant z _).trans (State.grantsOnly_stageCheck _ z)

theorem State.grantsOnly_applyRequest (s : State) (q : LightRequest) : s.GrantsOnly (s.applyRequest q) :=
  ((s.grantsOnly_setGroupGrant _ _).trans (State.grantsOnly_setTotal _ _)).trans (State.grantsOnly_setReserved _ _)

theorem State.grantsOnly_lightRequest (s : State) (q : LightRequest) : s.GrantsOnly (s.lightRequest q) := by
  have key : ∀ (t : State) (lowered : Prop) [Decidable lowered], s.GrantsOnly t →
      s.GrantsOnly (if lowered then (if t.budget.overdrawn then t.pass else t).retryCurtains
        else if t.budget.overdrawn then t.pass else t) := by
    intro t lowered _ ht
    have h : s.GrantsOnly (if t.budget.overdrawn then t.pass else t) := by
      split
      · exact ht.trans t.grantsOnly_pass
      · exact ht
    split
    · exact h.trans (State.grantsOnly_retryCurtains _)
    · exact h
  exact key _ _ ((s.grantsOnly_applyRequest q).trans (State.grantsOnly_raiseIf _ _ _))

/-! ### The exchange with the Lighting Unit -/

@[simp] theorem Group.followTarget_kept (x : Group) (old : Nat) :
    (x.followTarget old).config = x.config ∧ (x.followTarget old).state = x.state ∧ (x.followTarget old).hold = x.hold
    ∧ (x.followTarget old).override = x.override ∧ (x.followTarget old).lastOccupancy = x.lastOccupancy
    ∧ (x.followTarget old).trim = x.trim ∧ (x.followTarget old).desired = x.desired := by
  unfold Group.followTarget; split <;> simp

/-- What taking a grant, recomputing or recording a request leaves of a group (R138 to R140). -/
structure Group.Kept (x y : Group) : Prop where
  config    : y.config = x.config
  state     : y.state = x.state
  hold      : y.hold = x.hold
  override  : y.override = x.override
  occupancy : y.lastOccupancy = x.lastOccupancy

theorem Group.takeGrant_kept (x : Group) (n : Nat) : x.Kept (x.takeGrant n) := by
  unfold Group.takeGrant; constructor <;> simp

theorem Group.takeGrant_desired (x : Group) (n : Nat) :
    (x.takeGrant n).trim = x.trim ∧ (x.takeGrant n).desired = x.desired := by
  unfold Group.takeGrant; simp

theorem Group.recompute_kept (x : Group) (sc : Scene) (d : Daylight) : x.Kept (x.recompute sc d) := by
  unfold Group.recompute; split <;> constructor <;> simp

/-- A group's record as it is put: the record given, with the request it makes recorded (R139). -/
def Group.requesting (x : Group) (sc : Scene) : Group :=
  { x with floorRequest := (x.requestNow sc).1, levelRequest := (x.requestNow sc).2 }

/-- Putting a group's record: the record with its request recorded, and what is handed when the request is a new one. -/
theorem State.putGroup_eq (s : State) (g : Fin 24) (x : Group) :
    s.putGroup g x = (s.setGroup g (x.requesting (s.scene g)),
      if x.requestNow (s.scene g) = (x.floorRequest, x.levelRequest) then []
      else [⟨g, (x.requestNow (s.scene g)).1, (x.requestNow (s.scene g)).2⟩]) := by
  unfold State.putGroup Group.requesting; dsimp only
  split
  · rename_i h; rw [h]
  · rfl

theorem State.putGroup_state (s : State) (g : Fin 24) (x : Group) :
    (s.putGroup g x).1 = s.setGroup g (x.requesting (s.scene g)) := by rw [State.putGroup_eq]

/-- A group's record replaced by one that keeps all but its levels and grants. -/
theorem State.grantsOnly_setGroup (s : State) (g : Fin 24) (x : Group) (k : (s.lighting.groups.get g).Kept x)
    (d : x.trim = (s.lighting.groups.get g).trim ∧ x.desired = (s.lighting.groups.get g).desired) :
    s.GrantsOnly (s.setGroup g x) := by
  obtain ⟨h₁, h₂, h₃, h₄, h₅⟩ := k
  obtain ⟨h₆, h₇⟩ := d
  have hg : ∀ i : Fin 24, ((s.setGroup g x).lighting.groups.get i) = if g = i then x else s.lighting.groups.get i :=
    fun i => Table.get_set _ _ _ _
  constructor
  · constructor <;> (try (intro i; rw [hg i]; split)) <;> simp_all [State.setGroup, LinkInterface.Grows.refl]
  all_goals (try (intro i; rw [hg i]; split)) <;> simp_all [State.setGroup]

/-- The work of several groups within one event keeps a preorder that each group's record, as it is put, keeps. -/
theorem State.groupsDo_keeps (R : State → State → Prop) (refl : ∀ s, R s s) (trans : ∀ {a b c}, R a b → R b c → R a c)
    (f : State → Fin 24 → Group → Group)
    (step : ∀ s g, R s (s.setGroup g ((f s g (s.lighting.groups.get g)).requesting (s.scene g))))
    (gs : List (Fin 24)) (s : State) : R s (s.groupsDo gs f).1 := by
  have key : ∀ (gs : List (Fin 24)) (h : Handed), R h.1 (gs.foldl (fun h g => Handed.group h f g) h).1 := by
    intro gs
    induction gs with
    | nil => exact fun h => refl _
    | cons g gs ih =>
      intro h
      refine trans ?_ (ih (Handed.group h f g))
      unfold Handed.group; dsimp only
      rw [State.putGroup_state]
      exact step h.1 g
  exact key gs (s, [])

/-- The request a group's new record makes, handed when it differs from the one last handed (R139). -/
def Group.handed (x : Group) (sc : Scene) (g : Fin 24) : Option LightRequest :=
  if x.requestNow sc = (x.floorRequest, x.levelRequest) then none
  else some ⟨g, (x.requestNow sc).1, (x.requestNow sc).2⟩

/-- The work of several groups, each once and of its own record alone: every group named is put as that work leaves it, its
output on its dimmer channel, every other group stands, and the new requests are handed in the order of the groups. -/
theorem State.groupsDo_each (f : State → Fin 24 → Group → Group) (F : Fin 24 → Group → Group) (s : State)
    (own : ∀ u g x, u.calendar = s.calendar → u.lighting.taken = s.lighting.taken → f u g x = F g x)
    (gs : List (Fin 24)) (once : gs.Nodup) :
    s.groupsDo gs f =
      ({ s with
        lighting := { s.lighting with groups := s.lighting.groups.mapIdx fun g x =>
          if g ∈ gs then (F g x).requesting (s.scene g) else x }
        lines := { s.lines with dimmers := s.lines.dimmers.mapIdx fun g n =>
          if g ∈ gs then (F g (s.lighting.groups.get g)).output else n } },
      gs.filterMap fun g => (F g (s.lighting.groups.get g)).handed (s.scene g) g) := by
  suffices h : ∀ (gs : List (Fin 24)) (u : State) (acc : List LightRequest), gs.Nodup → u.calendar = s.calendar →
      u.lighting.taken = s.lighting.taken → (∀ g ∈ gs, u.lighting.groups.get g = s.lighting.groups.get g) →
      gs.foldl (fun h g => Handed.group h f g) (u, acc) =
        ({ u with
          lighting := { u.lighting with groups := u.lighting.groups.mapIdx fun g x =>
            if g ∈ gs then (F g x).requesting (s.scene g) else x }
          lines := { u.lines with dimmers := u.lines.dimmers.mapIdx fun g n =>
            if g ∈ gs then (F g (s.lighting.groups.get g)).output else n } },
        acc ++ gs.filterMap fun g => (F g (s.lighting.groups.get g)).handed (s.scene g) g) by
    simpa [State.groupsDo] using h gs s [] once rfl rfl fun _ _ => rfl
  intro gs
  induction gs with
  | nil =>
    intro u acc _ _ _ _
    have h₁ : (u.lighting.groups.mapIdx fun _ x => x) = u.lighting.groups := Table.ext_get (by simp)
    have h₂ : (u.lines.dimmers.mapIdx fun _ x => x) = u.lines.dimmers := Table.ext_get (by simp)
    simp [h₁, h₂]
  | cons g gs ih =>
    intro u acc once hc ht hg
    obtain ⟨hn, once⟩ := List.nodup_cons.1 once
    have hs : u.scene g = s.scene g := by simp [State.scene, State.sceneOf, State.phase, hc]
    have step : Handed.group (u, acc) f g
        = (u.setGroup g ((F g (s.lighting.groups.get g)).requesting (s.scene g)),
          acc ++ ((F g (s.lighting.groups.get g)).handed (s.scene g) g).toList) := by
      unfold Handed.group Group.handed
      rw [own u g _ hc ht, hg g List.mem_cons_self, State.putGroup_eq, hs]
      split <;> rfl
    rw [List.foldl_cons, step, ih _ _ once (by exact hc) (by exact ht) fun j hj => by
      have : g ≠ j := fun e => hn (e ▸ hj)
      simp [State.setGroup, this, hg j (List.mem_cons_of_mem _ hj)]]
    refine Prod.ext ?_ ?_
    · have member (j : Fin 24) (h : g ≠ j) : j ∈ g :: gs ↔ j ∈ gs := by simp [Ne.symm h]
      simp only [State.setGroup]
      congr 2 <;> apply Table.ext_get <;> intro j <;> simp only [Table.get_mapIdx, Table.get_set] <;>
        by_cases hj : g = j
      · subst hj; simp [hn, hg g List.mem_cons_self]
      · simp only [hj, if_false, member j hj]
      · subst hj; simp [hn, Group.requesting]
      · simp only [hj, if_false, member j hj]
    · cases h : (F g (s.lighting.groups.get g)).handed (s.scene g) g <;> simp [h]

theorem State.grantsOnly_takeGrants (s before : State) : s.GrantsOnly (s.takeGrants before).1 :=
  State.groupsDo_keeps State.GrantsOnly .refl .trans (fun s g x => x.takeGrant (s.budget.groups.get g).level)
    (fun s g => s.grantsOnly_setGroup g _
      (by
        obtain ⟨_, _, _, _, _⟩ := Group.takeGrant_kept (s.lighting.groups.get g) (s.budget.groups.get g).level
        constructor <;> assumption)
      (Group.takeGrant_desired (s.lighting.groups.get g) (s.budget.groups.get g).level))
    _ s

theorem Handed.grantsOnly_serve (h : Handed) (q : LightRequest) : h.1.GrantsOnly (h.serve q).1 :=
  (h.1.grantsOnly_lightRequest q).trans (State.grantsOnly_takeGrants _ _)

theorem State.grantsOnly_exchange (n : Nat) (s : State) (qs : List LightRequest) : s.GrantsOnly (s.exchange n qs) := by
  induction n generalizing s qs with
  | zero => exact .refl s
  | succ n ih =>
    unfold State.exchange
    split
    · exact .refl s
    · have key : ∀ (qs : List LightRequest) (h : Handed), h.1.GrantsOnly (qs.foldl Handed.serve h).1 := by
        intro qs
        induction qs with
        | nil => exact fun h => .refl _
        | cons q qs ihq => exact fun h => (h.grantsOnly_serve q).trans (ihq (h.serve q))
      exact (key qs (s, [])).trans (ih _ _)

theorem Handed.grantsOnly_settle (h : Handed) : h.1.GrantsOnly h.settle := State.grantsOnly_exchange _ _ _

/-- A pass with the taking of its grants (R121). -/
theorem State.grantsOnly_passAndHand (s : State) : s.GrantsOnly s.passAndHand :=
  (s.grantsOnly_pass.trans (State.grantsOnly_takeGrants _ _)).trans (Handed.grantsOnly_settle _)

theorem State.grantsOnly_passIfCapChanged (s before : State) : s.GrantsOnly (s.passIfCapChanged before) := by
  unfold State.passIfCapChanged; split
  · exact .refl s
  · exact s.grantsOnly_passAndHand

/-! ### A control cycle -/

/-- The last demand set replaced. -/
theorem State.cycleOnly_demand (s : State) (d : Option (Table 8 ZoneDemand)) :
    s.CycleOnly { s with budget := { s.budget with demand := d } } := by
  constructor <;> simp [LinkInterface.Grows.refl]

theorem State.cycleOnly_takeDemand (s : State) (d : Table 8 ZoneDemand) : s.CycleOnly (s.takeDemand d) :=
  (s.cycleOnly_demand (some d)).trans (State.grantsOnly_passAndHand _).toCycleOnly

theorem State.cycleOnly_markOff (s : State) (z : Fin 8) : s.CycleOnly (s.markOff z) := s.cycleOnly_demand _

theorem State.cycleOnly_zoneOff (s : State) (z : Fin 8) : s.CycleOnly (s.zoneOff z) := by
  unfold State.zoneOff; dsimp only
  refine .trans (s.cycleOnly_markOff z) ?_
  split
  · exact .refl _
  · exact ((((State.grantsOnly_setGrant _ z _).trans (State.grantsOnly_setTotal _ _)).trans
      (State.grantsOnly_setReserved _ _)).trans (State.grantsOnly_retryCurtains _)).toCycleOnly

/-- A curtain's record replaced by one with its configuration. -/
theorem State.cycleOnly_setCurtain (s : State) (c : Fin 16) (x : Curtain)
    (h : x.config = (s.doors.curtains.get c).config) : s.CycleOnly (s.setCurtain c x) := by
  have hg : ∀ i : Fin 16, ((s.setCurtain c x).doors.curtains.get i) = if c = i then x else s.doors.curtains.get i :=
    fun i => Table.get_set _ _ _ _
  constructor <;> (try (intro i; rw [hg i]; split)) <;> simp_all [State.setCurtain, LinkInterface.Grows.refl]

theorem Curtain.evaluate_config (x : Curtain) (wanted off : Bool) : (x.evaluate wanted off).1.config = x.config := by
  unfold Curtain.evaluate; split <;> (try split) <;> rfl

theorem State.cycleOnly_reevaluate (s : State) (c : Fin 16) : s.CycleOnly (s.reevaluate c) :=
  (s.cycleOnly_setCurtain c _ (Curtain.evaluate_config _ _ _)).trans (State.grantsOnly_handCurtain _ _ _).toCycleOnly

theorem State.cycleOnly_reevaluateOf (s : State) (c : Option (Fin 16)) : s.CycleOnly (s.reevaluateOf c) := by
  cases c with
  | none => exact .refl s
  | some c => exact s.cycleOnly_reevaluate c

/-- Some forecast entries removed. -/
theorem State.cycleOnly_forecasts (s : State) (l : List Forecast) (h : l.Sublist s.doors.forecasts) :
    s.CycleOnly { s with doors := { s.doors with forecasts := l } } := by
  constructor <;> simp [LinkInterface.Grows.refl, h]

theorem State.cycleOnly_removeForecast (s : State) (d : Fin 32) : s.CycleOnly (s.removeForecast d) :=
  s.cycleOnly_forecasts _ List.filter_sublist

theorem State.cycleOnly_doorMode (s : State) (z : Fin 8) : s.CycleOnly (s.doorMode z) := by
  unfold State.doorMode; dsimp only
  refine .trans ?_ (State.CycleOnly.forEach (fun c s => ?_) _)
  · split
    · exact .refl s
    · exact s.cycleOnly_forecasts _ List.filter_sublist
  · split
    · exact s.cycleOnly_reevaluate c
    · exact .refl s

theorem State.cycleOnly_modeEvent (s : State) (z : Fin 8) : s.CycleOnly (s.modeEvent z) := by
  unfold State.modeEvent; dsimp only
  refine .trans (s.cycleOnly_doorMode z) ?_
  split
  · exact State.cycleOnly_zoneOff _ z
  · exact .refl _

/-- The climate records replaced by others with the same settings and configurations. -/
theorem State.cycleOnly_climate (s : State) (x : Climate)
    (h : x.setting = s.climate.setting ∧ x.g1 = s.climate.g1 ∧ x.g2 = s.climate.g2 ∧ x.g3 = s.climate.g3
      ∧ x.deviationLimit = s.climate.deviationLimit)
    (hz : ∀ z, (x.zones.get z).config = (s.climate.zones.get z).config
      ∧ (x.zones.get z).manualHeat = (s.climate.zones.get z).manualHeat
      ∧ (x.zones.get z).manualFans = (s.climate.zones.get z).manualFans) :
    s.CycleOnly { s with climate := x } := by
  constructor <;> simp [LinkInterface.Grows.refl, h, hz]

theorem State.grantsOnly_reportDegraded (s before : State) (z : Fin 8) : s.GrantsOnly (s.reportDegraded before z) :=
  s.grantsOnly_raiseIf _ _

theorem State.grantsOnly_reportDeviation (s : State) : s.GrantsOnly s.reportDeviation := s.grantsOnly_raiseIf _ _

/-- A control cycle (R91). -/
theorem State.cycleOnly_cycle (s : State) : s.CycleOnly s.cycle := by
  unfold State.cycle; dsimp only
  refine .trans (s.cycleOnly_climate s.cycledClimate ⟨rfl, rfl, rfl, rfl, rfl⟩ fun z => ?_) ?_
  · simp [State.cycledClimate, State.cycledZones, Zone.cycle]
  refine .trans (State.CycleOnly.forEach (fun z t => (t.grantsOnly_reportDegraded s z).toCycleOnly) _) ?_
  refine .trans (State.grantsOnly_reportDeviation _).toCycleOnly ?_
  refine .trans (State.CycleOnly.forEach (fun z t => ?_) _) (State.cycleOnly_takeDemand _ _)
  split
  · exact .refl t
  · exact t.cycleOnly_modeEvent z

end Sys2Proof.Machine
end

