-- ==== Sys2Proof/Laws/Keeps.lean ====
section
/-! SUPPORT. What every shared operation keeps: the clock, the waiting commands, the boards, the bounds of the queues and
lists, the order of the settings and the lamp floors. One lemma for each operation, so that a claim about every step is
assembled from them. -/

namespace Sys2Proof.Machine

variable {s t u : State}

/-- What every event but those of the clock, the flags' clearing and a reset keeps. -/
structure State.Sound (s t : State) : Prop where
  clock     : t.clock = s.clock
  power     : t.power = s.power
  pending   : t.pending = s.pending
  boards    : t.lines.boards = s.lines.boards
  links     : s.links.Grows t.links
  staging   : s.calendar.staging.length ≤ Config.stagingEdits → t.calendar.staging.length ≤ Config.stagingEdits
  keys      : (s.calendar.staging.map fun x => x.edit.key).Nodup → (t.calendar.staging.map fun x => x.edit.key).Nodup
  records   : s.doors.queue.length ≤ Config.doorRecords → t.doors.queue.length ≤ Config.doorRecords
  forecasts : (s.doors.forecasts.length ≤ Config.forecastEntries → t.doors.forecasts.length ≤ Config.forecastEntries)
  oneEach   : ((s.doors.forecasts.map Forecast.door).Nodup → (t.doors.forecasts.map Forecast.door).Nodup)
  ordered   : s.SettingsOrdered → t.SettingsOrdered

/-- `Sound`, and the lamp floors and the lamp caps kept too. -/
structure State.Keeps (s t : State) : Prop extends State.Sound s t where
  lamps : s.LampFloors → t.LampFloors
  caps  : s.LampsCapped → t.LampsCapped

theorem State.Sound.refl (s : State) : s.Sound s :=
  ⟨rfl, rfl, rfl, rfl, .refl _, id, id, id, id, id, id⟩

theorem State.Sound.trans (h : s.Sound t) (k : t.Sound u) : s.Sound u :=
  ⟨k.clock.trans h.clock, k.power.trans h.power, k.pending.trans h.pending, k.boards.trans h.boards,
   h.links.trans k.links, fun x => k.staging (h.staging x), fun x => k.keys (h.keys x), fun x => k.records (h.records x),
   fun x => k.forecasts (h.forecasts x), fun x => k.oneEach (h.oneEach x), fun x => k.ordered (h.ordered x)⟩

theorem State.Keeps.refl (s : State) : s.Keeps s := ⟨.refl s, id, id⟩

theorem State.Keeps.trans (h : s.Keeps t) (k : t.Keeps u) : s.Keeps u :=
  ⟨h.toSound.trans k.toSound, fun x => k.lamps (h.lamps x), fun x => k.caps (h.caps x)⟩

theorem State.Keeps.forEach {n : Nat} {f : Fin n → State → State} (step : ∀ i s, State.Keeps s (f i s)) (s : State) :
    s.Keeps (s.forEach n f) :=
  foldl_keeps State.Keeps .refl .trans _ (fun s i => step i s) _ s

theorem State.Sound.forEach {n : Nat} {f : Fin n → State → State} (step : ∀ i s, State.Sound s (f i s)) (s : State) :
    s.Sound (s.forEach n f) :=
  foldl_keeps State.Sound .refl .trans _ (fun s i => step i s) _ s

/-- The bounds hold after a sound event when they held before it. -/
theorem State.Sound.bounded (h : s.Sound t) (b : s.Bounded) : t.Bounded :=
  ⟨h.clock ▸ b.second, h.clock ▸ b.tick, h.links.queues b.queues, h.staging b.staging, h.keys b.keys,
   h.records b.records, h.forecasts b.forecasts, h.oneEach b.oneEach⟩

/-! ### Lamp floors and lamp caps -/

/-- What the lamp floors and caps are about: the groups' records and the dimmer channels. -/
def State.lampView (s : State) : Lighting × Table 24 Nat := (s.lighting, s.lines.dimmers)

theorem State.caps_of_eq (hg : t.lighting.groups = s.lighting.groups) (hd : t.lines.dimmers = s.lines.dimmers)
    (l : s.LampsCapped) : t.LampsCapped := by
  intro g; rw [hg, hd]; exact l g

/-- One group within its grant, and dark when DISABLED. -/
structure Group.Capped (x : Group) : Prop where
  output : x.output ≤ x.granted
  dark   : x.state = .disabled → x.output = 0 ∧ x.desired = 0

theorem Group.followTarget_capped {x : Group} (old : Nat) (h : x.Capped) : (x.followTarget old).Capped := by
  obtain ⟨h₁, h₂⟩ := h
  unfold Group.followTarget Group.target
  split
  · exact ⟨Nat.min_le_right _ _, fun e => ⟨by simp [(h₂ e).2], (h₂ e).2⟩⟩
  · exact ⟨h₁, h₂⟩

theorem Group.takeGrant_capped {x : Group} (level : Nat) (h : x.Capped) : (x.takeGrant level).Capped := by
  obtain ⟨h₁, h₂⟩ := h
  unfold Group.takeGrant
  apply Group.followTarget_capped
  exact ⟨Nat.min_le_right _ _, fun e => ⟨by simp [(h₂ e).1], (h₂ e).2⟩⟩

theorem Group.recompute_capped {x : Group} (sc : Scene) (d : Daylight) (h : x.output ≤ x.granted) :
    (x.recompute sc d).Capped := by
  unfold Group.recompute
  split
  · exact ⟨Nat.zero_le _, fun _ => ⟨rfl, rfl⟩⟩
  · rename_i e
    apply Group.followTarget_capped
    exact ⟨max_le_max h (Nat.le_refl _), fun k => absurd k e⟩

theorem Group.rampStep_capped {x : Group} (h : x.Capped) : x.rampStep.Capped := by
  obtain ⟨h₁, h₂⟩ := h
  unfold Group.rampStep Group.target
  split
  · exact ⟨h₁, h₂⟩
  rename_i e
  split
  · exact ⟨Nat.min_le_right _ _, fun k => absurd k e⟩
  split
  · exact ⟨by dsimp only; omega, fun k => absurd k e⟩
  · exact ⟨by dsimp only; omega, fun k => absurd k e⟩

theorem Group.requesting_capped {x : Group} (sc : Scene) (h : x.Capped) : (x.requesting sc).Capped := ⟨h.output, h.dark⟩

/-- Putting a capped record keeps the lamp caps; its dimmer channel follows it. -/
theorem State.caps_setGroup (s : State) (g : Fin 24) (x : Group) (h : x.Capped) (l : s.LampsCapped) :
    (s.setGroup g x).LampsCapped := by
  intro i
  have hg : ((s.setGroup g x).lighting.groups.get i) = if g = i then x else s.lighting.groups.get i := Table.get_set _ _ _ _
  have hd : ((s.setGroup g x).lines.dimmers.get i) = if g = i then x.output else s.lines.dimmers.get i :=
    Table.get_set _ _ _ _
  rw [hg, hd]
  split
  · exact ⟨h.output, h.dark, rfl⟩
  · exact l i

theorem State.LampsCapped.group (l : s.LampsCapped) (g : Fin 24) : (s.lighting.groups.get g).Capped :=
  ⟨(l g).1, (l g).2.1⟩

/-- One group above a floor. -/
structure Group.Above (x : Group) (floor : Nat) : Prop where
  output  : floor ≤ x.output
  desired : floor ≤ x.desired
  granted : floor ≤ x.granted
  request : floor ≤ x.floorRequest

theorem State.lampFloors_iff : s.LampFloors ↔
    ∀ g, (s.lighting.groups.get g).state ≠ .disabled → (s.lighting.groups.get g).Above (s.scene g).floor :=
  ⟨fun h g e => ⟨(h g e).1, (h g e).2.1, (h g e).2.2.1, (h g e).2.2.2⟩,
   fun h g e => ⟨(h g e).output, (h g e).desired, (h g e).granted, (h g e).request⟩⟩

theorem Group.followTarget_above {x : Group} {n : Nat} (old : Nat) (h : x.Above n) : (x.followTarget old).Above n := by
  obtain ⟨h₁, h₂, h₃, h₄⟩ := h
  unfold Group.followTarget Group.target
  split
  · exact ⟨Nat.le_min.mpr ⟨h₂, h₃⟩, h₂, h₃, h₄⟩
  · exact ⟨h₁, h₂, h₃, h₄⟩

theorem Group.takeGrant_above {x : Group} {n : Nat} (level : Nat) (h : x.Above n) : (x.takeGrant level).Above n := by
  obtain ⟨h₁, h₂, h₃, h₄⟩ := h
  unfold Group.takeGrant
  apply Group.followTarget_above
  exact ⟨Nat.le_min.mpr ⟨h₁, le_max_of_le_right h₄⟩, h₂, le_max_of_le_right h₄, h₄⟩

/-- A group's record as a recomputation leaves it has output, desired and granted levels at or above the floor (R144). -/
theorem Group.recompute_floor (x : Group) (sc : Scene) (d : Daylight) (h : x.state ≠ .disabled) :
    sc.floor ≤ (x.recompute sc d).output ∧ sc.floor ≤ (x.recompute sc d).desired
    ∧ sc.floor ≤ (x.recompute sc d).granted := by
  have hd : sc.floor ≤ x.desiredNow sc d := by
    unfold Group.desiredNow; split <;> first | omega | simp_all
  unfold Group.recompute Group.followTarget Group.target
  rw [if_neg h]
  dsimp only
  split <;> simp only [Nat.le_min] <;> omega

theorem Group.rampStep_floor {x : Group} {n : Nat} (h : n ≤ x.output ∧ n ≤ x.desired ∧ n ≤ x.granted) :
    n ≤ x.rampStep.output ∧ n ≤ x.rampStep.desired ∧ n ≤ x.rampStep.granted := by
  unfold Group.rampStep Group.target
  split
  · exact h
  split
  · simp only [Nat.le_min]; omega
  split <;> simp only [Nat.le_min] <;> omega

theorem Group.requesting_above {x : Group} {sc : Scene} (e : x.state ≠ .disabled)
    (h : sc.floor ≤ x.output ∧ sc.floor ≤ x.desired ∧ sc.floor ≤ x.granted) : (x.requesting sc).Above sc.floor := by
  unfold Group.requesting Group.requestNow
  rw [if_neg e]
  exact ⟨h.1, h.2.1, h.2.2, Nat.le_refl _⟩

@[simp] theorem Group.requesting_state (x : Group) (sc : Scene) : (x.requesting sc).state = x.state := rfl

/-- A group that stands above its scene's floor whenever it is enabled. -/
def Group.Lawful (x : Group) (sc : Scene) : Prop :=
  x.state ≠ .disabled → sc.floor ≤ x.output ∧ sc.floor ≤ x.desired ∧ sc.floor ≤ x.granted

theorem Group.recompute_lawful (x : Group) (sc : Scene) (d : Daylight) : (x.recompute sc d).Lawful sc := by
  intro e
  rw [(x.recompute_kept sc d).state] at e
  exact x.recompute_floor sc d e

theorem State.setGroup_scene (s : State) (g i : Fin 24) (x : Group) : (s.setGroup g x).scene i = s.scene i := rfl

/-- Putting a lawful record keeps the lamp floors. -/
theorem State.lamps_setGroup (s : State) (g : Fin 24) (x : Group) (h : x.Lawful (s.scene g)) (l : s.LampFloors) :
    (s.setGroup g (x.requesting (s.scene g))).LampFloors := by
  rw [State.lampFloors_iff] at l ⊢
  intro i
  have hg : ((s.setGroup g (x.requesting (s.scene g))).lighting.groups.get i)
      = if g = i then x.requesting (s.scene g) else s.lighting.groups.get i := Table.get_set _ _ _ _
  rw [hg, State.setGroup_scene]
  split
  · rename_i e; subst e
    intro e
    exact Group.requesting_above e (h e)
  · exact l i

/-- A change of state that leaves the groups and the scenes in force as they were keeps the lamp floors. -/
theorem State.lamps_of_eq (hg : t.lighting.groups = s.lighting.groups) (hs : ∀ g, t.scene g = s.scene g)
    (l : s.LampFloors) : t.LampFloors := by
  intro g; rw [hg, hs]; exact l g

theorem State.lamps_of_view (hv : t.lampView = s.lampView) (hs : ∀ g, t.scene g = s.scene g) (l : s.LampFloors) :
    t.LampFloors := State.lamps_of_eq (congrArg (fun v => v.1.groups) hv) hs l

theorem State.caps_of_view (hv : t.lampView = s.lampView) (l : s.LampsCapped) : t.LampsCapped :=
  State.caps_of_eq (congrArg (fun v => v.1.groups) hv) (congrArg Prod.snd hv) l

/-! ### The frames of a cycle and of a pass -/

/-- The operating tables stand as they were after a cycle. -/
theorem State.CycleOnly.operating (h : s.CycleOnly t) : t.operating = s.operating := by
  simp only [State.operating, h.calendar, h.sensors, h.thresholds.1, h.thresholds.2.1, h.thresholds.2.2, h.light.1,
    h.light.2.1, h.times.1, h.times.2, h.settings.1, h.settings.2.1, h.settings.2.2.1, h.settings.2.2.2.1,
    h.settings.2.2.2.2, h.links.enables]

theorem State.SettingsOrdered.of_eq (h : s.SettingsOrdered) (ho : t.operating = s.operating) (hs : t.store = s.store) :
    t.SettingsOrdered :=
  ⟨by rw [ho]; exact h.working, by rw [hs]; exact h.stored, by rw [hs]; exact h.saving⟩

theorem State.CycleOnly.sound (h : s.CycleOnly t) : s.Sound t where
  clock     := h.clock
  power     := h.power
  pending   := h.pending
  boards    := h.boards
  links     := h.links
  staging   := by rw [h.calendar]; exact id
  keys      := by rw [h.calendar]; exact id
  records   := by rw [h.records]; exact id
  forecasts := fun x => (h.forecasts.length_le).trans x
  oneEach   := fun x => (h.forecasts.map _).nodup x
  ordered   := fun x => x.of_eq h.operating h.store

theorem State.CycleOnly.scene (h : s.CycleOnly t) (g : Fin 24) : t.scene g = s.scene g := by
  unfold State.scene State.sceneOf State.phase; rw [h.calendar]

/-! ### The lamp floors through a pass and its exchange -/

theorem State.lampView_pass (s : State) : s.pass.lampView = s.lampView := rfl

theorem State.lampView_tryCurtain (s : State) (c : Fin 16) : (s.tryCurtain c).lampView = s.lampView := by
  unfold State.tryCurtain; dsimp only; split <;> rfl

theorem State.lampView_retryCurtains (s : State) : s.retryCurtains.lampView = s.lampView := by
  have follow : ∀ t : State, t.followGrants.lampView = t.lampView := fun _ => rfl
  unfold State.retryCurtains State.forEach
  rw [follow]
  exact foldl_keeps (fun a b : State => b.lampView = a.lampView) (fun _ => rfl) (fun h k => k.trans h)
    (fun (s : State) (c : Fin 16) => s.tryCurtain c) (fun s c => s.lampView_tryCurtain c) (indices 16) s

theorem State.lampView_lightRequest (s : State) (q : LightRequest) : (s.lightRequest q).lampView = s.lampView := by
  have key : ∀ (t : State) (lowered : Prop) [Decidable lowered], t.lampView = s.lampView →
      (if lowered then (if t.budget.overdrawn then t.pass else t).retryCurtains
        else if t.budget.overdrawn then t.pass else t).lampView = s.lampView := by
    intro t lowered _ ht
    have h : (if t.budget.overdrawn then t.pass else t).lampView = s.lampView := by split <;> exact ht
    split
    · rw [State.lampView_retryCurtains]; exact h
    · exact h
  refine key _ _ ?_
  unfold State.raiseIf; split <;> rfl

theorem State.keeps_takeGrants (s before : State) : s.Keeps (s.takeGrants before).1 := by
  have lawful : ∀ (s : State) (g : Fin 24), s.LampFloors →
      ((s.lighting.groups.get g).takeGrant (s.budget.groups.get g).level).Lawful (s.scene g) := by
    intro s g l e
    rw [(Group.takeGrant_kept _ _).state] at e
    have h := Group.takeGrant_above (s.budget.groups.get g).level (State.lampFloors_iff.mp l g e)
    exact ⟨h.output, h.desired, h.granted⟩
  refine ⟨(s.grantsOnly_takeGrants before).toCycleOnly.sound, ?_, ?_⟩
  · exact State.groupsDo_keeps (fun a b => a.LampFloors → b.LampFloors) (fun _ => id) (fun h k x => k (h x))
      (fun s g x => x.takeGrant (s.budget.groups.get g).level)
      (fun s g l => s.lamps_setGroup g _ (lawful s g l) l) _ s
  · exact State.groupsDo_keeps (fun a b => a.LampsCapped → b.LampsCapped) (fun _ => id) (fun h k x => k (h x))
      (fun s g x => x.takeGrant (s.budget.groups.get g).level)
      (fun s g l => s.caps_setGroup g _ (Group.requesting_capped _ (Group.takeGrant_capped _ (l.group g))) l) _ s

theorem State.keeps_lightRequest (s : State) (q : LightRequest) : s.Keeps (s.lightRequest q) :=
  ⟨(s.grantsOnly_lightRequest q).toCycleOnly.sound,
   State.lamps_of_view (s.lampView_lightRequest q) (s.grantsOnly_lightRequest q).toCycleOnly.scene,
   State.caps_of_view (s.lampView_lightRequest q)⟩

theorem Handed.keeps_serve (h : Handed) (q : LightRequest) : h.1.Keeps (h.serve q).1 :=
  (h.1.keeps_lightRequest q).trans (State.keeps_takeGrants _ _)

theorem State.keeps_exchange (n : Nat) (s : State) (qs : List LightRequest) : s.Keeps (s.exchange n qs) := by
  induction n generalizing s qs with
  | zero => exact .refl s
  | succ n ih =>
    unfold State.exchange
    split
    · exact .refl s
    · have key : ∀ (qs : List LightRequest) (h : Handed), h.1.Keeps (qs.foldl Handed.serve h).1 := by
        intro qs
        induction qs with
        | nil => exact fun h => .refl _
        | cons q qs ihq => exact fun h => (h.keeps_serve q).trans (ihq (h.serve q))
      exact (key qs (s, [])).trans (ih _ _)

/-- The requests an event handed, taken by the allocator with all that follows (R139, R140). -/
theorem Handed.keeps_settle (h : Handed) : h.1.Keeps h.settle := State.keeps_exchange _ _ _

theorem State.keeps_pass (s : State) : s.Keeps s.pass :=
  ⟨s.grantsOnly_pass.toCycleOnly.sound, State.lamps_of_view s.lampView_pass s.grantsOnly_pass.toCycleOnly.scene,
   State.caps_of_view s.lampView_pass⟩

theorem State.keeps_passAndHand (s : State) : s.Keeps s.passAndHand :=
  (s.keeps_pass.trans (State.keeps_takeGrants _ _)).trans (Handed.keeps_settle _)

theorem State.keeps_passIfCapChanged (s before : State) : s.Keeps (s.passIfCapChanged before) := by
  unfold State.passIfCapChanged; split
  · exact .refl s
  · exact s.keeps_passAndHand

/-- An event within the frame of a cycle that leaves the groups as they were. -/
theorem State.CycleOnly.keeps (h : s.CycleOnly t) (hv : t.lampView = s.lampView) : s.Keeps t :=
  ⟨h.sound, State.lamps_of_view hv h.scene, State.caps_of_view hv⟩

/-! ### Events of the allocator and the door unit that leave the groups alone -/

theorem State.keeps_retryCurtains (s : State) : s.Keeps s.retryCurtains :=
  s.grantsOnly_retryCurtains.toCycleOnly.keeps s.lampView_retryCurtains

theorem State.lampView_handCurtain (s : State) (c : Fin 16) (h : CurtainHand) :
    (s.handCurtain c h).lampView = s.lampView := by
  cases h with
  | nothing => rfl
  | demand => exact s.lampView_tryCurtain c
  | release =>
    show (s.curtainRelease c).lampView = _
    unfold State.curtainRelease; dsimp only; split
    · rw [State.lampView_retryCurtains]; rfl
    · rfl

theorem State.keeps_handCurtain (s : State) (c : Fin 16) (h : CurtainHand) : s.Keeps (s.handCurtain c h) :=
  (s.grantsOnly_handCurtain c h).toCycleOnly.keeps (s.lampView_handCurtain c h)

theorem State.keeps_reevaluate (s : State) (c : Fin 16) : s.Keeps (s.reevaluate c) :=
  (s.cycleOnly_reevaluate c).keeps (State.lampView_handCurtain _ _ _)

theorem State.keeps_reevaluateOf (s : State) (c : Option (Fin 16)) : s.Keeps (s.reevaluateOf c) := by
  cases c with
  | none => exact .refl s
  | some c => exact s.keeps_reevaluate c

theorem State.keeps_curtainRelease (s : State) (c : Fin 16) : s.Keeps (s.curtainRelease c) := s.keeps_handCurtain c .release

theorem State.keeps_raise (s : State) (f : Flag) : s.Keeps (s.raise f) :=
  (s.grantsOnly_raise f).toCycleOnly.keeps rfl

theorem State.keeps_raiseIf (s : State) (c : Bool) (f : Flag) : s.Keeps (s.raiseIf c f) := by
  unfold State.raiseIf; split
  · exact s.keeps_raise f
  · exact .refl s

theorem State.keeps_notify (s : State) (l : Link) (n : Notice) : s.Keeps (s.notify l n) :=
  (s.grantsOnly_notify l n).toCycleOnly.keeps rfl

theorem State.keeps_stageCheck (s : State) (z : Fin 8) : s.Keeps (s.stageCheck z) := by
  refine (s.grantsOnly_stageCheck z).toCycleOnly.keeps ?_
  unfold State.stageCheck; dsimp only; split
  · rw [State.lampView_retryCurtains]; rfl
  · rfl

theorem State.keeps_stageChecks (s : State) : s.Keeps s.stageChecks := .forEach (fun z s => s.keeps_stageCheck z) s

theorem State.keeps_stageSecond (s : State) (z : Fin 8) : s.Keeps (s.stageSecond z) :=
  ((s.grantsOnly_setGrant z _).toCycleOnly.keeps rfl).trans (State.keeps_stageCheck _ z)

theorem State.keeps_zoneOff (s : State) (z : Fin 8) : s.Keeps (s.zoneOff z) := by
  refine (s.cycleOnly_zoneOff z).keeps ?_
  unfold State.zoneOff; dsimp only; split
  · rfl
  · rw [State.lampView_retryCurtains]; rfl

theorem State.keeps_doorMode (s : State) (z : Fin 8) : s.Keeps (s.doorMode z) := by
  unfold State.doorMode; dsimp only
  refine .trans ?_ (State.Keeps.forEach (fun c s => ?_) _)
  · split
    · exact .refl s
    · exact (s.cycleOnly_forecasts _ List.filter_sublist).keeps rfl
  · split
    · exact s.keeps_reevaluate c
    · exact .refl s

theorem State.keeps_modeEvent (s : State) (z : Fin 8) : s.Keeps (s.modeEvent z) := by
  unfold State.modeEvent; dsimp only
  refine .trans (s.keeps_doorMode z) ?_
  split
  · exact State.keeps_zoneOff _ z
  · exact .refl _

theorem State.keeps_takeDemand (s : State) (d : Table 8 ZoneDemand) : s.Keeps (s.takeDemand d) :=
  ((s.cycleOnly_demand (some d)).keeps rfl).trans (State.keeps_passAndHand _)

theorem State.keeps_reportDegraded (s before : State) (z : Fin 8) : s.Keeps (s.reportDegraded before z) :=
  s.keeps_raiseIf _ _

theorem State.keeps_reportDeviation (s : State) : s.Keeps s.reportDeviation := s.keeps_raiseIf _ _

/-- A control cycle (R91). -/
theorem State.keeps_cycle (s : State) : s.Keeps s.cycle := by
  unfold State.cycle; dsimp only
  refine .trans ((s.cycleOnly_climate s.cycledClimate ⟨rfl, rfl, rfl, rfl, rfl⟩ fun z => ?_).keeps rfl) ?_
  · simp [State.cycledClimate, State.cycledZones, Zone.cycle]
  refine .trans (State.Keeps.forEach (fun z t => t.keeps_reportDegraded s z) _) ?_
  refine .trans (State.keeps_reportDeviation _) ?_
  refine .trans (State.Keeps.forEach (fun z t => ?_) _) (State.keeps_takeDemand _ _)
  split
  · exact .refl t
  · exact t.keeps_modeEvent z

end Sys2Proof.Machine
end

