-- ==== Sys2Proof/Laws/Events.lean ====
section
/-! SUPPORT. What the events of the blocks keep: the Lighting Unit's, the Door Unit's, the Sensor Bus Master's, the
Accounting Unit's and the scan. -/

namespace Sys2Proof.Machine

variable {s t u : State}

/-! ### Records that no bound and no setting rests on -/

/-- An update that leaves every list, queue, setting, lamp group and link alone. -/
theorem State.keeps_plain (hk : t.clock = s.clock) (hp : t.power = s.power) (hq : t.pending = s.pending)
    (hb : t.lines.boards = s.lines.boards) (hl : t.links = s.links) (hc : t.calendar = s.calendar)
    (hr : t.doors.queue = s.doors.queue) (hf : t.doors.forecasts = s.doors.forecasts)
    (ho : t.operating = s.operating) (hs : t.store = s.store) (hg : t.lighting.groups = s.lighting.groups)
    (hd : t.lines.dimmers = s.lines.dimmers) :
    s.Keeps t where
  clock     := hk
  power     := hp
  pending   := hq
  boards    := hb
  links     := by rw [hl]; exact .refl _
  staging   := by rw [hc]; exact id
  keys      := by rw [hc]; exact id
  records   := by rw [hr]; exact id
  forecasts := by rw [hf]; exact id
  oneEach   := by rw [hf]; exact id
  ordered   := fun x => x.of_eq ho hs
  lamps     := State.lamps_of_eq hg fun g => by unfold State.scene State.sceneOf State.phase; rw [hc]
  caps      := State.caps_of_eq hg hd

theorem State.keeps_setChannel (s : State) (d : Fin 32) (x : Channel) : s.Keeps (s.setChannel d x) :=
  State.keeps_plain rfl rfl rfl rfl rfl rfl rfl rfl rfl rfl rfl rfl

theorem State.keeps_setCurtain (s : State) (c : Fin 16) (x : Curtain) : s.Keeps (s.setCurtain c x) :=
  State.keeps_plain rfl rfl rfl rfl rfl rfl rfl rfl rfl rfl rfl rfl

theorem State.keeps_setNode (s : State) (n : Fin 16) (x : Node) : s.Keeps (s.setNode n x) :=
  State.keeps_plain rfl rfl rfl rfl rfl rfl rfl rfl rfl rfl rfl rfl

theorem State.keeps_setZone (s : State) (z : Fin 8) (x : Zone) : s.Keeps (s.setZone z x) :=
  State.keeps_plain rfl rfl rfl rfl rfl rfl rfl rfl rfl rfl rfl rfl

theorem State.keeps_setCap (s : State) (c : Option SupervisorCap) : s.Keeps (s.setCap c) :=
  State.keeps_plain rfl rfl rfl rfl rfl rfl rfl rfl rfl rfl rfl rfl

theorem State.keeps_setLine (s : State) (l : Fin 192) (x : Line) : s.Keeps (s.setLine l x) :=
  State.keeps_plain rfl rfl rfl rfl rfl rfl rfl rfl rfl rfl rfl rfl

theorem State.keeps_creditZone (s : State) (z : Fin 8) (m n : Nat) : s.Keeps (s.creditZone z m n) :=
  State.keeps_plain rfl rfl rfl rfl rfl rfl rfl rfl rfl rfl rfl rfl

theorem State.keeps_addOpenSecond (s : State) (z : Fin 8) : s.Keeps (s.addOpenSecond z) :=
  State.keeps_plain rfl rfl rfl rfl rfl rfl rfl rfl rfl rfl rfl rfl

theorem State.keeps_ringMinute (s : State) : s.Keeps s.ringMinute :=
  State.keeps_plain rfl rfl rfl rfl rfl rfl rfl rfl rfl rfl rfl rfl

theorem State.keeps_zeroTallies (s : State) : s.Keeps s.zeroTallies :=
  State.keeps_plain rfl rfl rfl rfl rfl rfl rfl rfl rfl rfl rfl rfl

theorem State.keeps_accountSecond (s : State) : s.Keeps s.accountSecond :=
  State.keeps_plain rfl rfl rfl rfl rfl rfl rfl rfl rfl rfl rfl rfl

theorem State.keeps_owed (s : State) (l : List SecondOf) : s.Keeps { s with owed := l } :=
  State.keeps_plain rfl rfl rfl rfl rfl rfl rfl rfl rfl rfl rfl rfl

theorem State.keeps_rollover (s : State) : s.Keeps s.rollover :=
  (s.keeps_notify _ _).trans (State.keeps_plain rfl rfl rfl rfl rfl rfl rfl rfl rfl rfl rfl rfl)

/-! ### The Lighting Unit -/

/-- A group's record put, whatever it is: all but the lamp floors. -/
theorem State.sound_setGroup (s : State) (g : Fin 24) (x : Group) : s.Sound (s.setGroup g x) where
  clock     := rfl
  power     := rfl
  pending   := rfl
  boards    := rfl
  links     := .refl _
  staging   := id
  keys      := id
  records   := id
  forecasts := id
  oneEach   := id
  ordered   := fun x => x.of_eq rfl rfl

/-- The work one event does on a group: the record it leaves is above its scene's floor, and within its grant when the
record before was. -/
def Handed.Proper (f : State → Fin 24 → Group → Group) : Prop :=
  ∀ s g, (f s g (s.lighting.groups.get g)).Lawful (s.scene g)
    ∧ ((s.lighting.groups.get g).Capped → (f s g (s.lighting.groups.get g)).Capped)

theorem State.keeps_putGroup (s : State) (g : Fin 24) (x : Group) (h : x.Lawful (s.scene g))
    (hc : (s.lighting.groups.get g).Capped → x.Capped) :
    s.Keeps (s.setGroup g (x.requesting (s.scene g))) :=
  ⟨s.sound_setGroup _ _, s.lamps_setGroup g x h,
   fun l => s.caps_setGroup g _ (Group.requesting_capped _ (hc (l.group g))) l⟩

/-- The work of several groups within one event, each group's record left proper. -/
theorem State.keeps_groupsDo (s : State) (gs : List (Fin 24)) {f : State → Fin 24 → Group → Group}
    (h : Handed.Proper f) : s.Keeps (s.groupsDo gs f).1 :=
  State.groupsDo_keeps State.Keeps .refl .trans f (fun s g => s.keeps_putGroup g _ (h s g).1 (h s g).2) gs s

/-- One whole event of the Lighting Unit, with the exchange its requests bring. -/
theorem State.keeps_lightEvent (s : State) (gs : List (Fin 24)) {f : State → Fin 24 → Group → Group}
    (h : Handed.Proper f) : s.Keeps (s.groupsDo gs f).settle :=
  (s.keeps_groupsDo gs h).trans (Handed.keeps_settle _)

theorem recomputed_lawful (s : State) (g : Fin 24) (x : Group) : (recomputed s g x).Lawful (s.scene g) :=
  x.recompute_lawful _ _

/-- A recomputation after a change of a group's record that leaves the output within the grant. -/
theorem recomputed_proper {e : State → Fin 24 → Group → Group}
    (h : ∀ s g, (s.lighting.groups.get g).Capped →
      (e s g (s.lighting.groups.get g)).output ≤ (e s g (s.lighting.groups.get g)).granted) :
    Handed.Proper fun s g x => recomputed s g (e s g x) :=
  fun s g => ⟨recomputed_lawful s g _, fun c => Group.recompute_capped _ _ (h s g c)⟩

theorem Group.countOverride_kept (x : Group) : x.countOverride.output = x.output ∧ x.countOverride.granted = x.granted
    ∧ (x.state ≠ .disabled → x.countOverride.state ≠ .disabled) := by
  unfold Group.countOverride Group.endOverride
  split
  · exact ⟨rfl, rfl, id⟩
  · split
    · exact ⟨rfl, rfl, fun _ => by dsimp only; split <;> simp⟩
    · exact ⟨rfl, rfl, id⟩

theorem Group.countHold_kept (x : Group) : x.countHold.output = x.output ∧ x.countHold.granted = x.granted
    ∧ (x.state ≠ .disabled → x.countHold.state ≠ .disabled) := by
  unfold Group.countHold
  split
  · refine ⟨rfl, rfl, fun h => ?_⟩
    dsimp only; split <;> simp_all
  · exact ⟨rfl, rfl, id⟩

theorem Group.second_proper : Handed.Proper fun s g x => x.second (s.scene g) s.lighting.taken := by
  intro s g
  generalize s.lighting.groups.get g = x
  unfold Group.second
  dsimp only
  split
  · exact ⟨fun e => by contradiction, id⟩
  · rename_i h
    obtain ⟨o₁, g₁, s₁⟩ := x.countOverride_kept
    obtain ⟨o₂, g₂, s₂⟩ := x.countOverride.countHold_kept
    exact ⟨fun _ => Group.rampStep_floor (Group.recompute_floor _ _ _ (s₂ (s₁ h))),
      fun c => Group.rampStep_capped (Group.recompute_capped _ _ (by rw [o₂, g₂, o₁, g₁]; exact c.output))⟩

theorem State.keeps_groupEvent (s : State) (g : Fin 24) {f : Group → Group}
    (h : ∀ x : Group, x.Capped → (f x).output ≤ (f x).granted) : s.Keeps (s.groupEvent g f) := by
  unfold State.groupEvent
  exact s.keeps_lightEvent _ (recomputed_proper fun s g c => h _ c)

/-- The previous level of an occupancy line recorded. -/
theorem State.keeps_setOccupancy (s : State) (g : Fin 24) (b : Bool) :
    s.Keeps (s.setGroup g { s.lighting.groups.get g with lastOccupancy := b }) := by
  refine ⟨s.sound_setGroup _ _, fun l i => ?_, fun l => s.caps_setGroup g _ ⟨(l g).1, (l g).2.1⟩ l⟩
  have hg : ((s.setGroup g { s.lighting.groups.get g with lastOccupancy := b }).lighting.groups.get i)
      = if g = i then { s.lighting.groups.get g with lastOccupancy := b } else s.lighting.groups.get i :=
    Table.get_set _ _ _ _
  rw [hg, State.setGroup_scene]
  split
  · rename_i e; subst e; exact l g
  · exact l i

theorem State.keeps_deliverOccupancy (s : State) (g : Fin 24) (b : Bool) : s.Keeps (s.deliverOccupancy g b) := by
  unfold State.deliverOccupancy; dsimp only
  split
  · exact (s.keeps_setOccupancy g b).trans (State.keeps_groupEvent _ _ fun _ c => c.output)
  · exact s.keeps_setOccupancy g b

theorem State.keeps_doorActivity (s : State) (z : Fin 8) : s.Keeps (s.doorActivity z) := by
  unfold State.doorActivity
  exact s.keeps_lightEvent _ (recomputed_proper (e := fun _ _ x => x.occupied) fun _ _ c => c.output)

theorem State.keeps_sceneChanged (s : State) (g : Fin 24) : s.Keeps (s.sceneChanged g) := s.keeps_groupEvent g fun _ c => c.output

theorem State.keeps_takeDaylight (s : State) : s.Keeps s.takeDaylight :=
  State.keeps_plain rfl rfl rfl rfl rfl rfl rfl rfl rfl rfl rfl rfl

theorem State.keeps_lightSecond (s : State) : s.Keeps s.lightSecond := by
  unfold State.lightSecond
  exact s.keeps_takeDaylight.trans (State.keeps_lightEvent _ _ Group.second_proper)

/-- The groups' records once the work of an event has reached all of a list of groups: each of those stands lawful. -/
theorem State.groupsDo_lawful (f : State → Fin 24 → Group → Group)
    (h : ∀ s g, (f s g (s.lighting.groups.get g)).Lawful (s.scene g)) (gs : List (Fin 24)) (s : State)
    (outside : ∀ g, g ∉ gs → (s.lighting.groups.get g).state ≠ .disabled →
      (s.lighting.groups.get g).Above (s.scene g).floor) : (s.groupsDo gs f).1.LampFloors := by
  have key : ∀ (gs : List (Fin 24)) (p : Handed),
      (∀ g, g ∉ gs → (p.1.lighting.groups.get g).state ≠ .disabled →
        (p.1.lighting.groups.get g).Above (p.1.scene g).floor) →
      (gs.foldl (fun h g => Handed.group h f g) p).1.LampFloors := by
    intro gs
    induction gs with
    | nil => intro p hp; exact State.lampFloors_iff.mpr fun g => hp g (by simp)
    | cons g gs ih =>
      intro p hp
      refine ih (Handed.group p f g) fun i hi => ?_
      unfold Handed.group; dsimp only
      rw [State.putGroup_state]
      have hg : ((p.1.setGroup g ((f p.1 g (p.1.lighting.groups.get g)).requesting (p.1.scene g))).lighting.groups.get i)
          = if g = i then (f p.1 g (p.1.lighting.groups.get g)).requesting (p.1.scene g)
            else p.1.lighting.groups.get i := Table.get_set _ _ _ _
      rw [hg, State.setGroup_scene]
      split
      · rename_i e; subst e
        exact fun e => Group.requesting_above e (h p.1 g e)
      · rename_i e
        exact hp i (by simp only [List.mem_cons, not_or]; exact ⟨fun x => e x.symm, hi⟩)
  exact key gs (s, []) outside

theorem mem_indices {n : Nat} (i : Fin n) : i ∈ indices n := List.mem_finRange i

/-- Every group retargeted: the lamp floors hold whatever stood before (R144, R145). -/
theorem State.lamps_retarget (s : State) : s.retarget.LampFloors := by
  unfold State.retarget
  exact (Handed.keeps_settle _).lamps (State.groupsDo_lawful _ (fun s g => recomputed_lawful s g _) _ s
    fun g h => absurd (mem_indices g) h)

theorem State.keeps_retarget (s : State) : s.Keeps s.retarget := by
  unfold State.retarget
  exact s.keeps_lightEvent _ (recomputed_proper (e := fun _ _ x => x) fun _ _ c => c.output)

theorem State.keeps_startLights (s : State) : s.Keeps s.startLights := by
  unfold State.startLights
  refine s.keeps_takeDaylight.trans (State.keeps_lightEvent _ _ (recomputed_proper
    (e := fun _ _ x => if x.config.enabled then x.started else x.disabledNow) fun s g c => ?_))
  split
  · exact c.output
  · exact Nat.zero_le _

/-! ### The Door Unit -/

/-- The queue's records replaced by no more of them than there were. -/
theorem State.keeps_fewerRecords (s : State) (l : List DoorRecord) (x : LinkInterface)
    (h : l.length ≤ s.doors.queue.length) (hx : s.links.Grows x) :
    s.Keeps { s with doors := { s.doors with queue := l }, links := x } where
  clock     := rfl
  power     := rfl
  pending   := rfl
  boards    := rfl
  links     := hx
  staging   := id
  keys      := id
  records   := fun k => h.trans k
  forecasts := id
  oneEach   := id
  ordered   := fun o => ⟨by
    have : State.operating { s with doors := { s.doors with queue := l }, links := x }
        = { s.operating with enables := x.enables } := rfl
    rw [this, hx.enables]; exact o.working, o.stored, o.saving⟩
  lamps     := State.lamps_of_eq rfl fun _ => rfl
  caps      := id

theorem State.keeps_offerBatches (fuel n : Nat) (s : State) : s.Keeps (State.offerBatches fuel n s) := by
  induction fuel generalizing s with
  | zero => exact .refl s
  | succ fuel ih =>
    unfold State.offerBatches; dsimp only
    split
    · refine .trans (s.keeps_fewerRecords _ _ (by simp) ?_) (ih _)
      exact s.links.grows_setLink .supervisor _ (fun h => LinkState.offerAll_bounded _ _ h)
        (LinkState.offerAll_receiver _ _) (LinkState.offerAll_held _ _)
    · exact .refl s

theorem State.keeps_batchCheck (s : State) : s.Keeps s.batchCheck := by
  unfold State.batchCheck; split
  · exact State.keeps_offerBatches _ _ s
  · exact .refl s

theorem State.keeps_offerRecord (s : State) (r : DoorRecord) : s.Keeps (s.offerRecord r) := by
  unfold State.offerRecord
  refine .trans ?_ (State.keeps_batchCheck _)
  split
  · rename_i h
    exact
      { clock := rfl, power := rfl, pending := rfl, boards := rfl, links := .refl _, staging := id, keys := id
        records := fun _ => by simp; omega
        forecasts := id, oneEach := id, ordered := fun o => o.of_eq rfl rfl
        lamps := State.lamps_of_eq rfl fun _ => rfl, caps := id }
  · exact s.keeps_raise _

theorem State.keeps_capture (s : State) (d : Fin 32) (k : RecordKind) (i : Option Nat) : s.Keeps (s.capture d k i) := by
  have key : ∀ c : Prop, [Decidable c] → s.Keeps (if c then s.offerRecord (s.recordOf d k i) else s) := by
    intro c _; split
    · exact s.keeps_offerRecord _
    · exact .refl s
  exact key _

theorem State.keeps_curtainSecond (s : State) (c : Fin 16) : s.Keeps (s.curtainSecond c) := by
  unfold State.curtainSecond; dsimp only
  split
  · split
    · exact (s.keeps_setCurtain c _).trans (State.keeps_curtainRelease _ c)
    · exact s.keeps_setCurtain c _
  · exact .refl s

/-- The forecast table replaced by one no longer, with no door twice. -/
theorem State.keeps_forecasts (s : State) (l : List Forecast)
    (h : s.doors.forecasts.length ≤ Config.forecastEntries → l.length ≤ Config.forecastEntries)
    (hn : (s.doors.forecasts.map Forecast.door).Nodup → (l.map Forecast.door).Nodup) :
    s.Keeps { s with doors := { s.doors with forecasts := l } } :=
  { clock := rfl, power := rfl, pending := rfl, boards := rfl, links := .refl _, staging := id, keys := id, records := id
    forecasts := h, oneEach := hn, ordered := fun o => o.of_eq rfl rfl, lamps := State.lamps_of_eq rfl fun _ => rfl
    caps := id }

theorem State.keeps_removeForecast (s : State) (d : Fin 32) : s.Keeps (s.removeForecast d) :=
  s.keeps_forecasts _ (fun h => (List.length_filter_le _ _).trans h) fun h => (List.filter_sublist.map _).nodup h

theorem State.keeps_forecastSecond (s : State) (d : Fin 32) : s.Keeps (s.forecastSecond d) := by
  refine s.keeps_forecasts _ (fun h => (List.length_filterMap_le _ _).trans h) fun h => ?_
  suffices key : ∀ l : List Forecast, ((l.filterMap fun f =>
      if f.door = d then (if f.seconds ≤ 1 then none else some { f with seconds := f.seconds - 1 }) else some f).map
        Forecast.door).Sublist (l.map Forecast.door) from (key _).nodup h
  intro l
  induction l with
  | nil => simp
  | cons f l ih =>
    simp only [List.filterMap_cons]
    split
    · exact ih.trans (List.sublist_cons_self _ _)
    · rename_i y hy
      have : y.door = f.door := by
        split at hy
        · split at hy
          · cases hy
          · cases hy; rfl
        · cases hy; rfl
      simp only [List.map_cons, this]
      exact ih.cons_cons _

theorem State.keeps_deliverDoor (s : State) (d : Fin 32) (b : Bool) : s.Keeps (s.deliverDoor d b) := by
  unfold State.deliverDoor; dsimp only; split
  · exact s.keeps_setChannel d _
  · exact .refl s

theorem State.keeps_deliverTrailer (s : State) (d : Fin 32) (b : Bool) : s.Keeps (s.deliverTrailer d b) := by
  unfold State.deliverTrailer; dsimp only; split
  · exact s.keeps_setChannel d _
  · exact .refl s

theorem State.keeps_firstDoor (s : State) (d : Fin 32) (b : Bool) : s.Keeps (s.firstDoor d b) := by
  unfold State.firstDoor; dsimp only; split
  · exact (s.keeps_setChannel d _).trans (State.keeps_reevaluateOf _ _)
  · exact s.keeps_setChannel d _

theorem State.keeps_activityOf (s : State) (z : Option (Fin 8)) : s.Keeps (s.activityOf z) := by
  cases z with
  | none => exact .refl s
  | some z => exact s.keeps_doorActivity z

theorem State.keeps_openingOf (s : State) (z : Option (Fin 8)) : s.Keeps (s.openingOf z) := by
  cases z with
  | none => exact .refl s
  | some z => exact s.keeps_creditZone z 1 0

theorem State.keeps_doorOpens (s : State) (d : Fin 32) : s.Keeps (s.doorOpens d) := by
  unfold State.doorOpens
  exact (((((s.keeps_setChannel d _).trans (State.keeps_capture _ _ _ _)).trans (State.keeps_activityOf _ _)).trans
    (State.keeps_openingOf _ _)).trans (State.keeps_removeForecast _ d)).trans (State.keeps_reevaluateOf _ _)

theorem State.keeps_doorCloses (s : State) (d : Fin 32) : s.Keeps (s.doorCloses d) :=
  ((s.keeps_setChannel d _).trans (State.keeps_capture _ _ _ _)).trans (State.keeps_reevaluateOf _ _)

theorem State.keeps_trailerEdge (s : State) (d : Fin 32) (b : Bool) : s.Keeps (s.trailerEdge d b) := by
  unfold State.trailerEdge; dsimp only; split
  · exact ((s.keeps_setChannel d _).trans (State.keeps_capture _ _ _ _)).trans (State.keeps_activityOf _ _)
  · exact (s.keeps_setChannel d _).trans (State.keeps_capture _ _ _ _)

theorem State.keeps_settleDoor (s : State) (d : Fin 32) : s.Keeps (s.settleDoor d) := by
  unfold State.settleDoor; split
  · exact .refl s
  · exact s.keeps_firstDoor d _
  · exact s.keeps_doorOpens d
  · exact s.keeps_doorCloses d
  · exact s.keeps_doorCloses d
  · exact s.keeps_setChannel d _

theorem State.keeps_settleTrailer (s : State) (d : Fin 32) : s.Keeps (s.settleTrailer d) := by
  unfold State.settleTrailer; split
  · exact .refl s
  · exact s.keeps_setChannel d _
  · exact s.keeps_trailerEdge d _

theorem State.keeps_compareDoor (s : State) (d : Fin 32) : s.Keeps (s.compareDoor d) := by
  unfold State.compareDoor; dsimp only; split
  · exact ((s.keeps_setChannel d _).trans (State.keeps_capture _ _ _ _)).trans (State.keeps_raise _ _)
  · exact .refl s

theorem State.keeps_compareDoors (s : State) : s.Keeps s.compareDoors := .forEach (fun d s => s.keeps_compareDoor d) s

theorem State.keeps_openSecond (s : State) (d : Fin 32) : s.Keeps (s.openSecond d) := by
  unfold State.openSecond; dsimp only; split
  · split
    · exact s.keeps_setChannel d _
    · exact ((s.keeps_setChannel d _).trans (State.keeps_addOpenSecond _ _)).trans (State.keeps_creditZone _ _ _ _)
  · exact .refl s

theorem State.keeps_doorSecond (s : State) (d : Fin 32) : s.Keeps (s.doorSecond d) := by
  unfold State.doorSecond; dsimp only; split
  · exact .refl s
  · exact ((s.keeps_setChannel d _).trans (State.keeps_compareDoor _ d)).trans (State.keeps_openSecond _ d)

theorem State.keeps_doorTransition (s : State) (p : Phase) (b : Bool) : s.Keeps (s.doorTransition p b) := by
  have check : ∀ (c : State → Prop) [DecidablePred c] (t : State), s.Keeps t →
      s.Keeps (if c t then t.batchCheck else t) := by
    intro c _ t h; split
    · exact h.trans (State.keeps_batchCheck _)
    · exact h
  have h : s.Keeps (if b then s.compareDoors.zeroTallies else s.compareDoors) := by
    split
    · exact s.keeps_compareDoors.trans (State.keeps_zeroTallies _)
    · exact s.keeps_compareDoors
  exact check (fun t => busyClass p ∧ busyClass t.phase = false ∧ t.doors.quiet < t.doors.busy) _ h

/-! ### The Sensor Bus Master -/

theorem State.keeps_compareNode (s : State) (n : Fin 16) : s.Keeps (s.compareNode n) := by
  unfold State.compareNode; dsimp only; split
  · exact (s.keeps_setNode n _).trans (State.keeps_raiseIf _ _ _)
  · exact .refl s

theorem State.keeps_nodeSecond (s : State) (n : Fin 16) : s.Keeps (s.nodeSecond n) :=
  (s.keeps_setNode n _).trans (State.keeps_compareNode _ n)

theorem State.keeps_startRound (s : State) : s.Keeps s.startRound :=
  State.keeps_plain rfl rfl rfl rfl rfl rfl rfl rfl rfl rfl rfl rfl

theorem State.keeps_pollAfter (s : State) (n : Fin 16) : s.Keeps (s.pollAfter n) := by
  unfold State.pollAfter; split
  · exact State.keeps_plain rfl rfl rfl rfl rfl rfl rfl rfl rfl rfl rfl rfl
  · exact (s.keeps_raiseIf _ _).trans (State.keeps_startRound _)

theorem State.keeps_takeReply (s : State) (r : ReplyFrame) : s.Keeps (s.takeReply r) := by
  unfold State.takeReply; split
  · exact .refl s
  · refine State.Keeps.trans ?_ (State.keeps_pollAfter _ _)
    exact State.keeps_plain rfl rfl rfl rfl rfl rfl rfl rfl rfl rfl rfl rfl

theorem State.keeps_endWait (s : State) : s.Keeps s.endWait := by
  unfold State.endWait; split
  · exact .refl s
  · exact (s.keeps_setNode _ _).trans (State.keeps_pollAfter _ _)

theorem State.keeps_repoll (s : State) (n : Fin 16) (b : Bool) : s.Keeps (s.repoll n b) := by
  unfold State.repoll; split
  · exact s.keeps_startRound
  · split
    · split
      · exact State.keeps_plain rfl rfl rfl rfl rfl rfl rfl rfl rfl rfl rfl rfl
      · exact s.keeps_pollAfter n
    · exact .refl s

/-! ### The Load Allocator and the Zone Climate Engine at a second boundary -/

theorem State.keeps_capSecond (s : State) : s.Keeps s.capSecond := by
  unfold State.capSecond; split
  · split
    · exact (s.keeps_setCap none).trans (State.keeps_passIfCapChanged _ _)
    · exact s.keeps_setCap _
  · exact .refl s

theorem State.keeps_cycleSecond (s : State) : s.Keeps s.cycleSecond := by
  unfold State.cycleSecond; dsimp only; split
  · exact s.keeps_cycle
  · exact State.keeps_plain rfl rfl rfl rfl rfl rfl rfl rfl rfl rfl rfl rfl

theorem State.keeps_takePhaseCap (s : State) : s.Keeps s.takePhaseCap :=
  State.Keeps.trans (t := { s with budget := { s.budget with phaseCap := (s.paramsOf s.phase).cap } })
    (State.keeps_plain rfl rfl rfl rfl rfl rfl rfl rfl rfl rfl rfl rfl) (State.keeps_passIfCapChanged _ _)

/-! ### Lines -/

theorem State.keeps_deliver (s : State) (b : Binding) (a : Bool) : s.Keeps (s.deliver b a) := by
  cases b with
  | doorContact d => exact s.keeps_deliverDoor d a
  | trailer d => exact s.keeps_deliverTrailer d a
  | occupancy g => exact s.keeps_deliverOccupancy g a
  | _ => exact .refl s

theorem State.keeps_deliverLine (s : State) (l : Fin 192) : s.Keeps (s.deliverLine l) := by
  unfold State.deliverLine; dsimp only; split
  · exact s.keeps_deliver _ _
  · exact .refl s

theorem State.keeps_unbound (s : State) (b : Binding) : s.Keeps (s.unbound b) := by
  cases b with
  | doorContact d => exact s.keeps_setChannel d _
  | trailer d => exact s.keeps_setChannel d _
  | _ => exact .refl s

theorem State.keeps_boundChannel (s : State) (d : Fin 32) : s.Keeps (s.boundChannel d) := by
  unfold State.boundChannel; dsimp only; split
  · exact (s.keeps_setChannel d _).trans (State.keeps_reevaluateOf _ _)
  · exact .refl s

theorem State.keeps_newlyBound (s : State) (b : Binding) : s.Keeps (s.newlyBound b) := by
  cases b with
  | doorContact d => exact s.keeps_boundChannel d
  | trailer d => exact s.keeps_boundChannel d
  | occupancy g => exact s.keeps_setOccupancy g false
  | _ => exact .refl s

end Sys2Proof.Machine
end

