-- ==== Sys2Proof/Laws/Transitions.lean ====
section
/-! SUPPORT. What the Shift Calendar's events keep: the staging list within its bound with one edit for each key, the scenes
in order through every write and every application, and the lamp floors restored by the retargeting of a transition. -/

namespace Sys2Proof.Machine

variable {s t u : State}

/-! ### Scenes in order (R26, R27, R38) -/

theorem orderScene_ordered (l v f : Nat) : (orderScene l v f).Ordered := by
  unfold orderScene Scene.Ordered; dsimp only; omega

theorem orderPanelScene_ordered (l v : Nat) {f : Nat} (h : f ≤ 100) : (orderPanelScene l v f).Ordered := by
  unfold orderPanelScene Scene.Ordered; dsimp only; omega

theorem phaseIndex_injective {p q : Phase} (h : phaseIndex p = phaseIndex q) : p = q := by
  cases p <;> cases q <;> first | rfl | exact absurd h (by decide)

/-- A scene of the table after one is put. -/
theorem Calendar.sceneAt_putScene (c : Calendar) (p q : Phase) (g i : Fin 24) (x : Scene) :
    (c.putScene p g x).sceneAt q i = if p = q ∧ g = i then x else c.sceneAt q i := by
  unfold Calendar.putScene Calendar.sceneAt
  dsimp only
  rw [Table.get_modify]
  by_cases hp : p = q
  · subst hp; simp only [if_true, Table.get_set, true_and]
  · rw [if_neg fun h => hp (phaseIndex_injective h), if_neg fun h => hp h.1]

theorem Calendar.putScene_ordered (c : Calendar) (p : Phase) (g : Fin 24) {x : Scene} (hx : x.Ordered)
    (h : ScenesOrdered c.scenes) : ScenesOrdered (c.putScene p g x).scenes := by
  intro q i
  have e := c.sceneAt_putScene p q g i x
  unfold Calendar.sceneAt at e
  rw [e]
  split
  · exact hx
  · exact h q i

theorem Calendar.applyEdit_ordered (c : Calendar) (limit : Fin 8 → Nat → Nat) (e : Edit)
    (h : ScenesOrdered c.scenes) : ScenesOrdered (c.applyEdit limit e).scenes := by
  cases e with
  | entry i x => exact h
  | params p f => exact h
  | scene p g l v f =>
    cases f with
    | some f => exact c.putScene_ordered p g (orderScene_ordered l v f) h
    | none =>
      refine c.putScene_ordered p g (orderPanelScene_ordered l v ?_) h
      obtain ⟨h₁, h₂, h₃⟩ := h p g
      unfold Calendar.sceneAt
      omega

theorem Calendar.applyStaging_ordered (c : Calendar) (limit : Fin 8 → Nat → Nat) (h : ScenesOrdered c.scenes) :
    ScenesOrdered (c.applyStaging limit).scenes :=
  foldl_keeps (fun a b : Calendar => ScenesOrdered a.scenes → ScenesOrdered b.scenes) (fun _ => id)
    (fun h k x => k (h x)) (fun (c : Calendar) (x : StagedEdit) => c.applyEdit limit x.edit)
    (fun c x => c.applyEdit_ordered limit x.edit) c.staging c h

@[simp] theorem Calendar.applyStaging_staging (c : Calendar) (limit : Fin 8 → Nat → Nat) :
    (c.applyStaging limit).staging = [] := rfl

/-! ### The staging list (R31 to R33) -/

theorem Edit.join_key (x e : Edit) (h : x.key = e.key) : (x.join e).key = e.key := by
  cases x <;> cases e <;> simp_all [Edit.join, Edit.key]

/-- The staging list within its bound, one edit for each key. -/
structure Calendar.Staged (c : Calendar) : Prop where
  length : c.staging.length ≤ Config.stagingEdits
  keys   : (c.staging.map fun x => x.edit.key).Nodup

theorem Calendar.stage_keys (c : Calendar) (e : Edit) (l : Link) :
    (c.staging.map fun x => if x.edit.key = e.key then (⟨x.edit.join e, l⟩ : StagedEdit) else x).map (fun x => x.edit.key)
      = c.staging.map fun x => x.edit.key := by
  rw [List.map_map]
  apply List.map_congr_left
  intro x _
  simp only [Function.comp_apply]
  split
  · rename_i h; rw [Edit.join_key _ _ h, h]
  · rfl

/-- What staging an edit can do (R32). -/
theorem Calendar.stage_spec {c d : Calendar} {e : Edit} {l : Link} (h : c.stage e l = some d) :
    d = { c with staging := d.staging }
    ∧ (c.staging.length ≤ Config.stagingEdits → d.staging.length ≤ Config.stagingEdits)
    ∧ ((c.staging.map fun x => x.edit.key).Nodup → (d.staging.map fun x => x.edit.key).Nodup) := by
  unfold Calendar.stage at h
  split at h
  · cases h
    refine ⟨rfl, by simp, fun k => ?_⟩
    rw [c.stage_keys]; exact k
  · rename_i hk
    split at h
    · rename_i hl
      cases h
      refine ⟨rfl, fun _ => by simp; omega, fun k => ?_⟩
      rw [List.map_append, List.nodup_append]
      refine ⟨k, by simp, ?_⟩
      intro a ha b hb
      simp only [List.map_cons, List.map_nil, List.mem_singleton] at hb
      subst hb
      rintro rfl
      apply hk
      simp only [List.mem_map] at ha
      obtain ⟨x, hx, hxe⟩ := ha
      simp only [Calendar.isStaged, List.any_eq_true, beq_iff_eq]
      exact ⟨x, hx, hxe⟩
    · cases h

theorem Calendar.unstage_sublist (c : Calendar) (k : EditKey) : (c.unstage k).staging.Sublist c.staging :=
  List.filter_sublist

/-! ### A calendar replaced -/

/-- A calendar replaced by one whose staging list and scenes are as sound as its own. -/
theorem State.sound_calendar (s : State) (c : Calendar)
    (hl : s.calendar.staging.length ≤ Config.stagingEdits → c.staging.length ≤ Config.stagingEdits)
    (hk : (s.calendar.staging.map fun x => x.edit.key).Nodup → (c.staging.map fun x => x.edit.key).Nodup)
    (ho : ScenesOrdered s.calendar.scenes → ScenesOrdered c.scenes) : s.Sound { s with calendar := c } where
  clock     := rfl
  power     := rfl
  pending   := rfl
  boards    := rfl
  links     := .refl _
  staging   := hl
  keys      := hk
  records   := id
  forecasts := id
  oneEach   := id
  ordered   := fun o => ⟨⟨ho o.working.scenes, o.working.gas12, o.working.gas23, o.working.limits⟩, o.stored, o.saving⟩

/-- A calendar replaced by one with the same phase in force and the same scenes. -/
theorem State.keeps_calendar (s : State) (c : Calendar)
    (hl : s.calendar.staging.length ≤ Config.stagingEdits → c.staging.length ≤ Config.stagingEdits)
    (hk : (s.calendar.staging.map fun x => x.edit.key).Nodup → (c.staging.map fun x => x.edit.key).Nodup)
    (hs : c.scenes = s.calendar.scenes) (hp : c.record.phase = s.calendar.record.phase) :
    s.Keeps { s with calendar := c } :=
  ⟨s.sound_calendar c hl hk fun o => by rw [hs]; exact o,
   State.lamps_of_eq rfl fun g => by
    show ((c.scenes.get (phaseIndex c.record.phase)).get g) = _
    rw [hs, hp]; rfl, id⟩

theorem State.keeps_setOverride (s : State) (o : Option Override) : s.Keeps (s.setOverride o) :=
  s.keeps_calendar _ id id rfl rfl

/-! ### Transitions (R9) -/

theorem State.sound_enter (s : State) (p : Phase) (src : Source) (o : Option Override) : s.Sound (s.enter p src o) := by
  have h : s.Sound { s with calendar := { s.calendar.applyStaging s.setpointLimit with record := ⟨p, src, s.now, o⟩ } } :=
    s.sound_calendar _ (fun _ => by simp) (fun _ => by simp) fun h => s.calendar.applyStaging_ordered _ h
  exact ((h.trans (State.keeps_raise _ _).toSound).trans (State.keeps_notify _ _ _).toSound).trans
    (State.keeps_notify _ _ _).toSound

theorem State.lampView_enter (s : State) (p : Phase) (src : Source) (o : Option Override) :
    (s.enter p src o).lampView = s.lampView := rfl

/-- Step 5 of a transition keeps all, and leaves the lamp floors right whatever they were (R144, R145). -/
theorem State.keeps_handOn (s : State) (p : Phase) (b : Bool) : s.Keeps (s.handOn p b) := by
  have h : s.Keeps (((s.cycle.retarget).doorTransition p b).takePhaseCap) :=
    ((s.keeps_cycle.trans (State.keeps_retarget _)).trans (State.keeps_doorTransition _ _ _)).trans
      (State.keeps_takePhaseCap _)
  unfold State.handOn; dsimp only
  split
  · exact h.trans (State.keeps_rollover _)
  · exact h

theorem State.lamps_handOn (s : State) (p : Phase) (b : Bool) : (s.handOn p b).LampFloors := by
  have h : (((s.cycle.retarget).doorTransition p b).takePhaseCap).LampFloors :=
    (State.keeps_takePhaseCap _).lamps ((State.keeps_doorTransition _ _ _).lamps (State.lamps_retarget _))
  unfold State.handOn; dsimp only
  split
  · exact (State.keeps_rollover _).lamps h
  · exact h

theorem State.keeps_transition (s : State) (p : Phase) (src : Source) (o : Option Override) (b : Bool) :
    s.Keeps (s.transition p src o b) :=
  ⟨(s.sound_enter p src o).trans (State.keeps_handOn _ _ _).toSound, fun _ => State.lamps_handOn _ _ _,
   fun l => (State.keeps_handOn _ _ _).caps (State.caps_of_view (s.lampView_enter p src o) l)⟩

theorem State.keeps_endOverride (s : State) : s.Keeps s.endOverride := s.keeps_transition _ _ _ _

theorem State.keeps_overrideSecond (s : State) : s.Keeps s.overrideSecond := by
  unfold State.overrideSecond; split
  · split
    · exact s.keeps_endOverride
    · exact s.keeps_calendar _ id id rfl rfl
  · exact .refl s

theorem State.keeps_evaluateLead (s : State) : s.Keeps s.evaluateLead := by
  unfold State.evaluateLead; split
  · exact s.keeps_transition _ _ _ _
  · exact .refl s

theorem State.keeps_calendarMinute (s : State) : s.Keeps s.calendarMinute := by
  unfold State.calendarMinute; split
  · exact .refl s
  · split
    · exact s.keeps_transition _ _ _ _
    · exact s.keeps_evaluateLead

theorem State.keeps_clockMinute (s : State) : s.Keeps s.clockMinute := s.keeps_raiseIf _ _

theorem State.keeps_settleOutcome (s : State) : s.Keeps s.settleOutcome := by
  have key : ∀ x : Phase × Source, s.Keeps (if (s.phase, s.calendar.record.source) = x then s
      else s.transition x.1 x.2 none false) := by
    intro x; split
    · exact .refl s
    · exact s.keeps_transition _ _ _ _
  exact key _

theorem State.keeps_setEvent (s : State) (a b : Bool) : s.Keeps (s.setEvent a b) := by
  have h : s.Keeps (if b then s.ringMinute.calendarMinute else s) := by
    split
    · exact s.keeps_ringMinute.trans (State.keeps_calendarMinute _)
    · exact .refl s
  unfold State.setEvent; dsimp only
  revert h
  generalize (if b = true then s.ringMinute.calendarMinute else s) = t
  intro h
  split
  · exact h
  · split
    · split
      · exact h
      · exact h.trans (t.keeps_transition _ _ _ _)
    · exact h.trans t.keeps_settleOutcome

/-! ### Table-change events -/

theorem State.keeps_fieldsChanged (s : State) (p : Phase) (f : PhaseFields) : s.Keeps (s.fieldsChanged p f) := by
  have h : s.Keeps (if f.longOpen.isSome then s.compareDoors else s) := by
    split
    · exact s.keeps_compareDoors
    · exact .refl s
  unfold State.fieldsChanged; dsimp only
  split
  · split
    · exact h.trans (State.keeps_takePhaseCap _)
    · exact h
  · exact .refl s

theorem State.keeps_sceneWritten (s : State) (p : Phase) (g : Fin 24) : s.Keeps (s.sceneWritten p g) := by
  unfold State.sceneWritten; split
  · exact s.keeps_sceneChanged g
  · exact .refl s

theorem State.keeps_clampSetpoints (s : State) (z : Fin 8) : s.Keeps (s.clampSetpoints z) :=
  s.keeps_calendar _ id id rfl rfl

/-- A scene written at once and the recomputation it brings: the lamp floors hold again (R30, R144). -/
theorem State.lamps_sceneWritten (s : State) (p : Phase) (g : Fin 24)
    (h : ∀ i, ¬ (p = s.phase ∧ g = i) → (s.lighting.groups.get i).state ≠ .disabled →
      (s.lighting.groups.get i).Above (s.scene i).floor) : (s.sceneWritten p g).LampFloors := by
  unfold State.sceneWritten
  split
  · rename_i e
    unfold State.sceneChanged State.groupEvent
    refine (Handed.keeps_settle _).lamps (State.groupsDo_lawful _ (fun s g => recomputed_lawful s g _) _ s fun i hi => h i ?_)
    rintro ⟨-, rfl⟩
    exact hi (by simp)
  · rename_i e
    exact State.lampFloors_iff.mpr fun i => h i fun x => e x.1

/-! ### The second boundaries and the tick (R1) -/

theorem State.keeps_secondFor (s : State) (x : SecondOf) : s.Keeps (s.secondFor x) := by
  cases x with
  | override => exact s.keeps_overrideSecond
  | cap => exact s.keeps_capSecond
  | cycle => exact s.keeps_cycleSecond
  | lighting => exact s.keeps_lightSecond
  | door d => exact s.keeps_doorSecond d
  | curtain c => exact s.keeps_curtainSecond c
  | forecast d => exact s.keeps_forecastSecond d
  | node n => exact s.keeps_nodeSecond n
  | stages z => exact s.keeps_stageSecond z

theorem State.keeps_deliverSecond (s : State) (x : SecondOf) : s.Keeps (s.deliverSecond x) := by
  unfold State.deliverSecond; split
  · exact s.keeps_owed _
  · exact s.keeps_secondFor x

theorem State.keeps_takeOwed (s : State) (x : SecondOf) : s.Keeps (s.takeOwed x) :=
  (s.keeps_owed _).trans (State.keeps_secondFor _ x)

theorem State.keeps_takeNamed (s : State) (x : SecondOf) (b : Bool) : s.Keeps (s.takeNamed x b) := by
  unfold State.takeNamed; split
  · exact s.keeps_takeOwed x
  · exact .refl s

theorem State.keeps_takeSettlements (s : State) : s.Keeps s.takeSettlements :=
  .forEach (fun d s => (s.keeps_settleDoor d).trans (State.keeps_settleTrailer _ d)) s

theorem State.keeps_takeDue (s : State) : s.Keeps s.takeDue := by
  unfold State.takeDue; dsimp only
  refine s.keeps_takeSettlements.trans (.trans (State.keeps_owed _ []) ?_)
  exact foldl_keeps State.Keeps .refl .trans State.secondFor (fun s x => s.keeps_secondFor x) _ _

/-- What a scan keeps besides the boards (R148). -/
theorem State.keeps_deliveries (s : State) : s.Keeps (s.forEach 192 fun l t => t.deliverLine l) :=
  .forEach (fun l s => s.keeps_deliverLine l) s

/-- The events of a tick other than the scan. -/
theorem State.keeps_tickEvent (capture : Capture) (a b : Bool) (s : State) (e : TickEvent) (h : e ≠ .scan) :
    s.Keeps (State.tickEvent capture a b s e) := by
  have one : ∀ (c : Bool) (t : State), s.Keeps t → s.Keeps (if c then t else s) := by
    intro c t ht; split
    · exact ht
    · exact .refl s
  cases e with
  | scan => exact absurd rfl h
  | takeDue => exact s.keeps_takeDue
  | calendarMinute => exact one b _ s.keeps_calendarMinute
  | clockMinute => exact one b _ s.keeps_clockMinute
  | ringMinute => exact one b _ s.keeps_ringMinute
  | overrideSecond => exact one a _ (s.keeps_deliverSecond _)
  | doorSecond => exact one a _ (.forEach (fun d s => s.keeps_deliverSecond _) s)
  | curtainSecond => exact one a _ (.forEach (fun d s => s.keeps_deliverSecond _) s)
  | forecastSecond => exact one a _ (.forEach (fun d s => s.keeps_deliverSecond _) s)
  | nodeSecond => exact one a _ (.forEach (fun d s => s.keeps_deliverSecond _) s)
  | capSecond => exact one a _ (s.keeps_deliverSecond _)
  | stageSecond => exact one a _ (.forEach (fun d s => s.keeps_deliverSecond _) s)
  | lightSecond => exact one a _ (s.keeps_deliverSecond _)
  | cycleSecond => exact one a _ (s.keeps_deliverSecond _)
  | accountSecond => exact one a _ s.keeps_accountSecond

/-- The boards and lines as a scan leaves them before its deliveries (R147, R148). -/
def State.afterScan (s : State) (capture : Capture) : State :=
  { s with lines := { s.lines with
    boards := s.lines.boards.mapIdx fun b y => y.scanned (capture.get b)
    lines := s.lines.lines.mapIdx fun l y => y.scanned (s.lines.board l).present } }

theorem State.scan_eq (s : State) (capture : Capture) :
    s.scan capture = (s.afterScan capture).forEach 192 fun l t => t.deliverLine l := rfl

end Sys2Proof.Machine
end

