-- ==== Sys2Proof/Laws/Calls.lean ====
section
/-! SUPPORT. What taking a call can do, said once (R162): discarded, turned away LEVEL or RANGE, or taken by its block and
answered once. Then what each call keeps. -/

namespace Sys2Proof.Machine

variable {s t u : State} {α : Type} {k : CallKind} {o : Origin}

theorem State.answerCode_eq (s : State) (code : Byte) (o : Origin) (r : Reply) :
    (s.setReceiver o.link .hunting).answerCode code o r = s.answeredCode code o r := by
  unfold State.answerCode State.answeredCode State.setReceiver LinkInterface.offer LinkState.offer
  dsimp only
  rw [LinkInterface.link_setLink_same]
  cases o.link <;> (simp only [LinkInterface.setLink, LinkInterface.link, Config.queueFrames]; rfl)

/-- An answer offered by a call whose receiver hunts. -/
theorem State.answer_eq (s : State) (k : CallKind) (o : Origin) (r : Reply) :
    (s.setReceiver o.link .hunting).answer k o r = s.answered k o r := s.answerCode_eq _ o r

/-- A call that reaches its block: the block's own event, the answer, then what the block hands on. -/
theorem State.runCall_taken (h : s.Admits k o) (a : α) (own : α → State → Taken) :
    s.runCall k o (some a) own =
      .next ((own a (s.setReceiver o.link .hunting)).after
        ((own a (s.setReceiver o.link .hunting)).state.answer k o (own a (s.setReceiver o.link .hunting)).reply)) := by
  have hr : (s.setReceiver o.link .hunting).links.restart = none := by
    simp [State.setReceiver, h.open_]
  simp [State.runCall, State.run, State.whenRunning, State.takeCall, h.running, hr, h.may]

/-- A call whose body does not hold its fields (R162, step 3). -/
theorem State.runCall_malformed (h : s.Admits k o) (own : α → State → Taken) :
    s.runCall k o none own = .next (s.answered k o ⟨.range, .bare⟩) := by
  have hr : (s.setReceiver o.link .hunting).links.restart = none := by
    simp [State.setReceiver, h.open_]
  simp [State.runCall, State.run, State.whenRunning, State.takeCall, h.running, hr, h.may, State.answer_eq, replyOnly]

/-- A call its link may not make (R165). -/
theorem State.runCall_level (hp : s.power = .running) (hr : s.links.restart = none) (hl : linkMay k o.link = false)
    (b : Body α) (own : α → State → Taken) : s.runCall k o b own = .next (s.answered k o ⟨.level, .bare⟩) := by
  have hr' : (s.setReceiver o.link .hunting).links.restart = none := by
    simp [State.setReceiver, hr]
  simp [State.runCall, State.run, State.whenRunning, State.takeCall, hp, hr', hl, State.answer_eq, replyOnly]

/-- A call taken once a RESTART is accepted (R170). -/
theorem State.runCall_discarded (hp : s.power = .running) (hr : s.links.restart ≠ none) (b : Body α)
    (own : α → State → Taken) : s.runCall k o b own = .next (s.unanswered o) := by
  have hr' : (s.setReceiver o.link .hunting).links.restart.isSome = true := by
    simp [State.setReceiver, Option.isSome_iff_ne_none, hr]
  unfold State.runCall State.run State.whenRunning State.takeCall
  rw [if_pos hp]
  dsimp only
  rw [if_pos hr']
  rfl

/-- A command's effect while the part does not run. -/
theorem State.run_stopped (h : s.power ≠ .running) (f : State → State) : s.run f = .next s := by
  simp [State.run, State.whenRunning, h]

theorem State.run_running (h : s.power = .running) (f : State → State) : s.run f = .next (f s) := by
  simp [State.run, State.whenRunning, h]

/-! ### What a taken call keeps -/

/-- What a call keeps of the whole part, the link it came by among it: the invariants, and the flags that are set. -/
structure State.CallKeeps (s t : State) : Prop where
  clock   : t.clock = s.clock
  pending : t.pending = s.pending
  boards  : t.lines.boards = s.lines.boards
  flags   : s.links.keepsFlags t.links
  bounded : s.Bounded → t.Bounded
  ordered : s.SettingsOrdered → t.SettingsOrdered
  lamps   : s.LampFloors → t.LampFloors
  caps    : s.LampsCapped → t.LampsCapped

theorem State.CallKeeps.refl (s : State) : s.CallKeeps s := ⟨rfl, rfl, rfl, fun _ => id, id, id, id, id⟩

theorem State.CallKeeps.trans (h : s.CallKeeps t) (k : t.CallKeeps u) : s.CallKeeps u :=
  ⟨k.clock.trans h.clock, k.pending.trans h.pending, k.boards.trans h.boards, fun f x => k.flags f (h.flags f x),
   fun x => k.bounded (h.bounded x), fun x => k.ordered (h.ordered x), fun x => k.lamps (h.lamps x),
   fun x => k.caps (h.caps x)⟩

/-- What a call's own event, its answer and what it hands on keep: all that, and every link's receiver and hold. -/
structure State.CallSound (s t : State) : Prop extends State.CallKeeps s t where
  receivers : ∀ l, (t.links.link l).receiver = (s.links.link l).receiver ∧ (t.links.link l).held = (s.links.link l).held

theorem State.CallSound.refl (s : State) : s.CallSound s := ⟨.refl s, fun _ => ⟨rfl, rfl⟩⟩

theorem State.CallSound.trans (h : s.CallSound t) (k : t.CallSound u) : s.CallSound u :=
  ⟨h.toCallKeeps.trans k.toCallKeeps,
   fun l => ⟨(k.receivers l).1.trans (h.receivers l).1, (k.receivers l).2.trans (h.receivers l).2⟩⟩

theorem State.Keeps.callSound (h : s.Keeps t) : s.CallSound t :=
  ⟨⟨h.clock, h.pending, h.boards, h.links.flags, h.bounded, h.ordered, h.lamps, h.caps⟩,
   fun l => ⟨h.links.receiver l, h.links.held l⟩⟩

/-- A link's record replaced by one whose queue is within its bound. -/
theorem State.callKeeps_setLink (s : State) (l : Link) (x : LinkState)
    (h : (s.links.link l).queue.length ≤ Config.queueFrames → x.queue.length ≤ Config.queueFrames) :
    s.CallKeeps { s with links := s.links.setLink l x } where
  clock   := rfl
  pending := rfl
  boards  := rfl
  flags   := fun f k => by simpa [LinkInterface.isSet] using k
  bounded := fun b =>
    ⟨b.second, b.tick, fun m => by
      show ((s.links.setLink l x).link m).queue.length ≤ _
      rw [LinkInterface.link_setLink]; split
      · exact h (b.queues l)
      · exact b.queues m, b.staging, b.keys, b.records, b.forecasts, b.oneEach⟩
  ordered := fun o => o.of_eq (by
    show State.operating { s with links := _ } = s.operating
    simp [State.operating]) rfl
  lamps   := State.lamps_of_eq rfl fun _ => rfl
  caps    := id

/-- A receiver set to a state: all kept but that receiver. -/
theorem State.callKeeps_setReceiver (s : State) (l : Link) (r : Receiver) : s.CallKeeps (s.setReceiver l r) :=
  s.callKeeps_setLink l _ id

theorem State.callSound_answerCode (s : State) (c : Byte) (o : Origin) (r : Reply) : s.CallSound (s.answerCode c o r) :=
  ⟨s.callKeeps_setLink o.link _ fun h => LinkState.offer_bounded _ _ h, fun l => by
    show (((s.links.offer o.link _).link l)).receiver = _ ∧ (((s.links.offer o.link _).link l)).held = _
    unfold LinkInterface.offer
    rw [LinkInterface.link_setLink]
    split
    · rename_i e; subst e; exact ⟨LinkState.offer_receiver _ _, LinkState.offer_held _ _⟩
    · exact ⟨rfl, rfl⟩⟩

theorem State.callSound_answer (s : State) (k : CallKind) (o : Origin) (r : Reply) : s.CallSound (s.answer k o r) :=
  s.callSound_answerCode _ o r

/-- A call keeps a preorder that taking a frame, answering, and the call's own event with its answer and what it hands on
keep. -/
theorem State.takeCall_keeps (R : State → State → Prop) (trans : ∀ {a b c}, R a b → R b c → R a c) (refl : ∀ a, R a a)
    (receiver : ∀ s l, R s (State.setReceiver s l .hunting)) (answer : ∀ s k o r, R s (State.answer s k o r))
    (s : State) (k : CallKind) (o : Origin) (body : Body α) (own : α → State → Taken)
    (h : ∀ a s, R s ((own a s).after ((own a s).state.answer k o (own a s).reply))) : R s (s.takeCall k o body own) := by
  refine trans (receiver s o.link) ?_
  unfold State.takeCall
  dsimp only
  generalize s.setReceiver o.link .hunting = s
  split
  · exact refl s
  · split
    · split
      · exact answer s k o _
      · exact h _ s
    · exact answer s k o _

/-- A call whose own event and whose handing on are both sound keeps all but its own link's receiver, however it is turned
away. -/
theorem State.callKeeps_takeCall (s : State) (k : CallKind) (o : Origin) (body : Body α) (own : α → State → Taken)
    (h : ∀ a s, State.CallSound s (own a s).state) (ha : ∀ a s t, State.CallSound t ((own a s).after t)) :
    s.CallKeeps (s.takeCall k o body own) :=
  State.takeCall_keeps State.CallKeeps .trans .refl (fun s l => s.callKeeps_setReceiver l _)
    (fun s k o r => (State.callSound_answer s k o r).toCallKeeps) s k o body own
    fun a s => (((h a s).trans (State.callSound_answer _ k o _)).trans (ha a s _)).toCallKeeps

end Sys2Proof.Machine
end

