-- ==== Sys2Proof/Laws/CallsKeep.lean ====
section
/-! SUPPORT. What each call of the table keeps: one lemma for each block's part of a call. CLOCK_SET, FLAGS_CLEAR, SCENE_WRITE
and the three calls that make a transition change something the others keep and have lemmas of their own shape. -/

namespace Sys2Proof.Machine

variable {s t u : State} {α : Type}

/-- What comes of a call is sound: the owner's event, and what is handed on from any state. -/
structure Taken.Sound (x : Taken) (s : State) : Prop where
  event : s.CallSound x.state
  after : ∀ t, State.CallSound t (x.after t)

theorem Taken.Sound.same {s t : State} (h : s.CallSound t) (r : Reply) : Taken.Sound { state := t, reply := r } s :=
  ⟨h, fun t => .refl t⟩

theorem Taken.Sound.turnedAway (s : State) (x : Status) : (Taken.turnedAway s x).Sound s := Taken.Sound.same (.refl s) _

theorem Taken.Sound.report (s : State) (f : AnswerFields) : (Taken.report s f).Sound s := Taken.Sound.same (.refl s) _

theorem Taken.Sound.ite {c : Prop} [Decidable c] {x y : Taken} (hx : x.Sound s) (hy : y.Sound s) :
    (if c then x else y).Sound s := by
  split
  · exact hx
  · exact hy

theorem State.callKeeps_call (s : State) (k : CallKind) (o : Origin) (body : Body α) (own : α → State → Taken)
    (h : ∀ a s, (own a s).Sound s) : s.CallKeeps (s.takeCall k o body own) :=
  s.callKeeps_takeCall k o body own (fun a s => (h a s).event) (fun a s => (h a s).after)

/-! ### Clock and calendar -/

theorem State.callSound_calendar (s : State) (c : Calendar) (h : s.Keeps { s with calendar := c }) :
    s.CallSound (s.setCalendar c) := h.callSound

theorem ownCalRead_sound (a : IndexArgs) (s : State) : (ownCalRead a s).Sound s := by
  unfold ownCalRead; split
  · exact .turnedAway s _
  · exact .report s _

theorem State.stageEdit_sound (s : State) (e : Edit) (l : Link) (r : Reply) : (s.stageEdit e l r).Sound s := by
  unfold State.stageEdit; split
  · exact .turnedAway s _
  · rename_i c h
    obtain ⟨h₁, h₂, h₃⟩ := Calendar.stage_spec h
    refine .same (s.keeps_calendar c h₂ h₃ ?_ ?_).callSound r <;> rw [h₁]

theorem Calendar.unstage_length (c : Calendar) (k : EditKey) (h : c.staging.length ≤ Config.stagingEdits) :
    (c.unstage k).staging.length ≤ Config.stagingEdits := (c.unstage_sublist k).length_le.trans h

theorem Calendar.unstage_keys (c : Calendar) (k : EditKey) (h : (c.staging.map fun x => x.edit.key).Nodup) :
    ((c.unstage k).staging.map fun x => x.edit.key).Nodup := ((c.unstage_sublist k).map _).nodup h

theorem ownCalWrite_sound (l : Link) (a : CalWriteArgs) (s : State) : (ownCalWrite l a s).Sound s := by
  unfold ownCalWrite
  split
  · split
    · exact .turnedAway s _
    · dsimp only
      split
      · exact s.stageEdit_sound _ _ _
      · refine .same (s.callSound_calendar _ ?_) _
        exact s.keeps_calendar _ (s.calendar.unstage_length _) (s.calendar.unstage_keys _) rfl rfl
  · exact .turnedAway s _

theorem ownCalSettings_sound (a : CalSettingsArgs) (s : State) : (ownCalSettings a s).Sound s := by
  unfold ownCalSettings; split
  · exact .turnedAway s _
  · refine .same (s.callSound_calendar _ ?_) _
    exact s.keeps_calendar _ id id rfl rfl

theorem ownStagedDiscard_sound (a : Unit) (s : State) : (ownStagedDiscard a s).Sound s := by
  unfold ownStagedDiscard
  refine .same (s.callSound_calendar _ ?_) _
  exact s.keeps_calendar _ (fun _ => by simp) (fun _ => by simp) rfl rfl

theorem ownPhaseTableRead_sound (a : PhaseTableReadArgs) (s : State) : (ownPhaseTableRead a s).Sound s := by
  unfold ownPhaseTableRead; split
  · exact .turnedAway s _
  · exact .report s _

theorem ownSceneRead_sound (a : SceneReadArgs) (s : State) : (ownSceneRead a s).Sound s := by
  unfold ownSceneRead; split
  · exact .report s _
  · exact .turnedAway s _

theorem ownPhaseWrite_sound (l : Link) (a : PhaseWriteArgs) (s : State) : (ownPhaseWrite l a s).Sound s := by
  unfold ownPhaseWrite
  split
  · split
    · exact .turnedAway s _
    · dsimp only
      split
      · exact .same (.refl s) _
      · split
        · exact s.stageEdit_sound _ _ _
        · exact ⟨s.callSound_calendar _
              (s.keeps_calendar _ (s.calendar.unstage_length _) (s.calendar.unstage_keys _) rfl rfl),
            fun t => (t.keeps_fieldsChanged _ _).callSound⟩
  · exact .turnedAway s _

/-- Writing one scene at once and taking the recomputation it brings, the answer between them (R30, R33). -/
theorem State.writeScene_sound (s : State) (p : Phase) (g : Fin 24) {x : Scene}
    (hx : ScenesOrdered s.calendar.scenes → x.Ordered) (r : Reply) (k : CallKind) (o : Origin) :
    s.CallSound ((s.writeScene p g x r).after ((s.writeScene p g x r).state.answer k o (s.writeScene p g x r).reply)) := by
  have h₁ : s.Sound (s.writeScene p g x r).state :=
    s.sound_calendar _ (s.calendar.unstage_length _) (s.calendar.unstage_keys _)
      fun h => (s.calendar.unstage _).putScene_ordered p g (hx h) h
  have h₂ := State.callSound_answer (s.writeScene p g x r).state k o (s.writeScene p g x r).reply
  have h₃ := (State.keeps_sceneWritten ((s.writeScene p g x r).state.answer k o (s.writeScene p g x r).reply) p g).callSound
  refine ⟨⟨h₃.clock.trans (h₂.clock.trans h₁.clock), h₃.pending.trans (h₂.pending.trans h₁.pending),
    h₃.boards.trans (h₂.boards.trans h₁.boards), fun f y => h₃.flags f (h₂.flags f (h₁.links.flags f y)),
    fun y => h₃.bounded (h₂.bounded (h₁.bounded y)), fun y => h₃.ordered (h₂.ordered (h₁.ordered y)), fun y => ?_,
    fun y => h₃.caps (h₂.caps (State.caps_of_eq rfl rfl y))⟩,
    fun l => ⟨(h₃.receivers l).1.trans ((h₂.receivers l).1.trans (h₁.links.receiver l)),
      (h₃.receivers l).2.trans ((h₂.receivers l).2.trans (h₁.links.held l))⟩⟩
  refine State.lamps_sceneWritten _ p g fun i hi e => ?_
  change ¬ (p = s.phase ∧ g = i) at hi
  have hs : (State.answer (s.writeScene p g x r).state k o (s.writeScene p g x r).reply).scene i = s.scene i := by
    show ((s.calendar.unstage (.scene p g)).putScene p g x).sceneAt s.phase i = s.scene i
    rw [Calendar.sceneAt_putScene, if_neg hi]; rfl
  rw [hs]
  exact State.lampFloors_iff.mp y i e

theorem ownSceneWrite_sound (l : Link) (a : SceneWriteArgs) (s : State) (k : CallKind) (o : Origin) :
    s.CallSound ((ownSceneWrite l a s).after ((ownSceneWrite l a s).state.answer k o (ownSceneWrite l a s).reply)) := by
  have same : ∀ (x : Taken), x.Sound s → s.CallSound (x.after (x.state.answer k o x.reply)) :=
    fun x h => (h.event.trans (State.callSound_answer _ k o _)).trans (h.after _)
  unfold ownSceneWrite
  split
  · split
    · unfold supervisorScene; dsimp only; split
      · exact same _ (s.stageEdit_sound _ _ _)
      · exact s.writeScene_sound _ _ (fun _ => orderScene_ordered _ _ _) _ k o
    · unfold panelScene; dsimp only; split
      · exact same _ (s.stageEdit_sound _ _ _)
      · refine s.writeScene_sound _ _ (fun h => orderPanelScene_ordered _ _ ?_) _ k o
        obtain ⟨_, _, _⟩ := h (_ : Phase) (_ : Fin 24)
        exact Nat.le_trans ‹_› (Nat.le_trans ‹_› ‹_›)
  · exact same _ (.turnedAway s _)

/-- A transition made by a call, its answer between steps 4 and 5 (R9). -/
theorem State.callTransition_sound (s : State) (p : Phase) (src : Source) (v : Option Override) (r : Reply)
    (k : CallKind) (o : Origin) :
    s.CallSound ((s.callTransition p src v r).after
      ((s.callTransition p src v r).state.answer k o (s.callTransition p src v r).reply)) := by
  have h₁ : s.Sound (s.callTransition p src v r).state := s.sound_enter p src v
  have h₂ := State.callSound_answer (s.callTransition p src v r).state k o (s.callTransition p src v r).reply
  have h₃ := (State.keeps_handOn ((s.callTransition p src v r).state.answer k o (s.callTransition p src v r).reply)
    s.phase false).callSound
  exact ⟨⟨h₃.clock.trans (h₂.clock.trans h₁.clock), h₃.pending.trans (h₂.pending.trans h₁.pending),
    h₃.boards.trans (h₂.boards.trans h₁.boards), fun f y => h₃.flags f (h₂.flags f (h₁.links.flags f y)),
    fun y => h₃.bounded (h₂.bounded (h₁.bounded y)), fun y => h₃.ordered (h₂.ordered (h₁.ordered y)),
    fun _ => State.lamps_handOn _ _ _, fun y => h₃.caps (h₂.caps (State.caps_of_view (s.lampView_enter p src v) y))⟩,
    fun l => ⟨(h₃.receivers l).1.trans ((h₂.receivers l).1.trans (h₁.links.receiver l)),
      (h₃.receivers l).2.trans ((h₂.receivers l).2.trans (h₁.links.held l))⟩⟩

theorem ownPhaseForce_sound (a : PhaseForceArgs) (s : State) (k : CallKind) (o : Origin) :
    s.CallSound ((ownPhaseForce a s).after ((ownPhaseForce a s).state.answer k o (ownPhaseForce a s).reply)) := by
  unfold ownPhaseForce
  split
  · exact State.callSound_answer s k o _
  · dsimp only; split
    · exact (s.keeps_setOverride _).callSound.trans (State.callSound_answer _ k o _)
    · exact s.callTransition_sound _ _ _ _ k o

theorem ownPhaseExtend_sound (a : PhaseExtendArgs) (s : State) (k : CallKind) (o : Origin) :
    s.CallSound ((ownPhaseExtend a s).after ((ownPhaseExtend a s).state.answer k o (ownPhaseExtend a s).reply)) := by
  unfold ownPhaseExtend
  dsimp only
  split
  · exact State.callSound_answer s k o _
  · split
    · exact State.callSound_answer s k o _
    · split
      · exact (s.keeps_setOverride _).callSound.trans (State.callSound_answer _ k o _)
      · exact s.callTransition_sound _ _ _ _ k o

theorem ownPhaseRelease_sound (a : Unit) (s : State) (k : CallKind) (o : Origin) :
    s.CallSound ((ownPhaseRelease a s).after ((ownPhaseRelease a s).state.answer k o (ownPhaseRelease a s).reply)) := by
  unfold ownPhaseRelease
  split
  · exact s.callTransition_sound _ _ _ _ k o
  · exact State.callSound_answer s k o _

/-! ### Doors -/

theorem ownDoorConfig_sound (a : DoorConfigArgs) (s : State) : (ownDoorConfig a s).Sound s := by
  unfold ownDoorConfig
  split
  · refine Taken.Sound.ite ⟨?_, fun t => ((t.keeps_reevaluateOf _).trans (State.keeps_reevaluateOf _ _)).callSound⟩
      (.turnedAway s _)
    exact ((s.keeps_removeForecast _).trans (State.keeps_setChannel _ _ _)).callSound
  · exact .turnedAway s _

theorem ownDoorRead_sound (a : IndexArgs) (s : State) : (ownDoorRead a s).Sound s := by
  unfold ownDoorRead; split
  · exact .turnedAway s _
  · exact .report s _

theorem ownCurtainConfig_sound (a : CurtainConfigArgs) (s : State) : (ownCurtainConfig a s).Sound s := by
  unfold ownCurtainConfig
  split
  · dsimp only
    split
    · exact .report s _
    · split
      · exact .turnedAway s _
      · exact .same ((s.keeps_setCurtain _ _).trans (State.keeps_reevaluate _ _)).callSound _
  · exact .turnedAway s _

theorem ownArrivalForecast_sound (a : ArrivalForecastArgs) (s : State) : (ownArrivalForecast a s).Sound s := by
  unfold ownArrivalForecast
  split
  · exact .turnedAway s _
  · rename_i d _
    split
    · rename_i hu
      refine .same (State.keeps_forecasts s _ (fun h => ?_) (fun h => ?_)).callSound _
      · simp only [State.removeForecast, List.length_append, List.length_cons, List.length_nil]
        have hlen := List.length_filter_le (fun f : Forecast => decide (f.door ≠ d)) s.doors.forecasts
        simp only [State.forecastUsable, Bool.and_eq_true, Bool.or_eq_true, decide_eq_true_eq] at hu
        rcases hu.2 with hf | hf
        · have : (s.doors.forecasts.filter fun f => decide (f.door ≠ d)).length < s.doors.forecasts.length := by
            obtain ⟨f, hf⟩ := Option.isSome_iff_exists.mp hf
            have hm := List.mem_of_find?_eq_some hf
            have hd : f.door = d := by simpa using List.find?_some hf
            refine lt_of_le_of_ne hlen fun e => ?_
            have := List.length_filter_eq_length_iff.mp e f hm
            simp [hd] at this
          omega
        · omega
      · simp only [State.removeForecast, List.map_append, List.map_cons, List.map_nil]
        rw [List.nodup_append]
        refine ⟨(List.filter_sublist.map _).nodup h, by simp, ?_⟩
        intro x hx y hy
        simp only [List.mem_singleton] at hy
        subst hy
        simp only [List.mem_map, List.mem_filter, decide_eq_true_eq] at hx
        obtain ⟨f, ⟨_, hf⟩, rfl⟩ := hx
        exact hf
    · exact .turnedAway s _

theorem State.keeps_doorSettings (s : State) (busy quiet : Nat) (notices : Bool) :
    s.Keeps { s with doors := { s.doors with busy := busy, quiet := quiet, notices := notices } } :=
  { clock := rfl, power := rfl, pending := rfl, boards := rfl, links := .refl _, staging := id, keys := id, records := id
    forecasts := id, oneEach := id
    ordered := fun o => ⟨⟨o.working.scenes, o.working.gas12, o.working.gas23, o.working.limits⟩, o.stored, o.saving⟩
    lamps := State.lamps_of_eq rfl fun _ => rfl, caps := id }

theorem ownDoorqThresholds_sound (a : DoorqThresholdsArgs) (s : State) : (ownDoorqThresholds a s).Sound s := by
  unfold ownDoorqThresholds
  dsimp only
  refine .same ?_ _
  split
  · exact ((s.keeps_doorSettings _ _ s.doors.notices).trans (State.keeps_batchCheck _)).callSound
  · exact (s.keeps_doorSettings _ _ s.doors.notices).callSound

theorem ownDoorqNotices_sound (a : OnOffArgs) (s : State) : (ownDoorqNotices a s).Sound s := by
  unfold ownDoorqNotices
  dsimp only
  refine .same ?_ _
  split
  · exact ((s.keeps_doorSettings s.doors.busy s.doors.quiet a.on).trans (State.keeps_batchCheck _)).callSound
  · exact (s.keeps_doorSettings s.doors.busy s.doors.quiet a.on).callSound

theorem ownDoorqRead_sound (l : Link) (a : DoorqReadArgs) (s : State) : (ownDoorqRead l a s).Sound s := by
  unfold ownDoorqRead
  dsimp only
  refine .same ?_ _
  split
  · exact (s.keeps_fewerRecords _ s.links (by simp) (.refl _)).callSound
  · exact .refl s

theorem ownDoorqFlush_sound (a : Unit) (s : State) : (ownDoorqFlush a s).Sound s :=
  .same (s.keeps_fewerRecords [] s.links (by simp) (.refl _)).callSound _

/-! ### Sensors -/

theorem ownNodeConfig_sound (a : NodeConfigArgs) (s : State) : (ownNodeConfig a s).Sound s := by
  unfold ownNodeConfig
  split
  · exact .turnedAway s _
  · exact .turnedAway s _
  · exact .turnedAway s _
  · dsimp only
    split
    · exact .turnedAway s _
    · exact .same ((s.keeps_setNode _ _).trans (State.keeps_repoll _ _ _)).callSound _

theorem ownNodeRead_sound (a : IndexArgs) (s : State) : (ownNodeRead a s).Sound s := by
  unfold ownNodeRead; split
  · exact .turnedAway s _
  · exact .report s _

theorem ownSourceMapWrite_sound (a : SourceMapArgs) (s : State) : (ownSourceMapWrite a s).Sound s := by
  unfold ownSourceMapWrite; split
  · exact .turnedAway s _
  · refine .same (State.Keeps.callSound ?_) _
    exact State.keeps_plain rfl rfl rfl rfl rfl rfl rfl rfl rfl rfl rfl rfl

/-- The sensor limits replaced by others with the degrade limit above the stale limit (R77). -/
theorem State.keeps_sensorLimits (s : State) (stale degrade assumed : Nat) (h : stale < degrade) :
    s.Keeps { s with sensors := { s.sensors with stale := stale, degrade := degrade, assumed := assumed } } :=
  { clock := rfl, power := rfl, pending := rfl, boards := rfl, links := .refl _, staging := id, keys := id, records := id
    forecasts := id, oneEach := id
    ordered := fun o => ⟨⟨o.working.scenes, o.working.gas12, o.working.gas23, h⟩, o.stored, o.saving⟩
    lamps := State.lamps_of_eq rfl fun _ => rfl, caps := id }

theorem ownSensorLimits_sound (a : SensorLimitsArgs) (s : State) : (ownSensorLimits a s).Sound s := by
  unfold ownSensorLimits
  dsimp only
  refine .same ?_ _
  generalize (Option.map (fun v => clampNat 5 255 (BitVec.toNat v)) a.stale).getD s.sensors.stale = stale
  generalize (Option.map (fun v => clampNat 10 3600 (BitVec.toNat v)) a.degrade).getD s.sensors.degrade = written
  have hd : stale < if written ≤ stale then stale + 1 else written := by split <;> omega
  revert hd
  generalize (if written ≤ stale then stale + 1 else written) = degrade
  intro hd
  have h := s.keeps_sensorLimits stale degrade ((a.assumed.map BitVec.toNat).getD s.sensors.assumed) hd
  split
  · exact h.callSound
  · exact (h.trans (State.Keeps.forEach (fun n s => s.keeps_compareNode n) _)).callSound

/-! ### Climate -/

theorem ownZoneConfig_sound (a : ZoneConfigArgs) (s : State) : (ownZoneConfig a s).Sound s := by
  unfold ownZoneConfig
  split
  · split
    · exact .turnedAway s _
    · split
      · exact .turnedAway s _
      · refine ⟨(s.keeps_setZone _ _).callSound, fun t => ?_⟩
        dsimp only
        refine State.CallSound.trans ?_ (State.keeps_cycle _).callSound
        split
        · exact (t.keeps_clampSetpoints _).callSound
        · exact .refl t
  · exact .turnedAway s _

theorem ownZoneMode_sound (a : ZoneModeArgs) (s : State) : (ownZoneMode a s).Sound s := by
  unfold ownZoneMode
  split
  · split
    · dsimp only
      split
      · exact .report s _
      · refine ⟨(s.keeps_setZone _ _).callSound, fun t => ?_⟩
        dsimp only
        exact ((t.keeps_modeEvent _).trans (State.keeps_cycle _)).callSound
    · exact .turnedAway s _
  · exact .turnedAway s _

theorem ownZoneManual_sound (a : ZoneManualArgs) (s : State) : (ownZoneManual a s).Sound s := by
  unfold ownZoneManual; split
  · exact .turnedAway s _
  · exact .same (s.keeps_setZone _ _).callSound _

/-- The climate settings replaced by others with the gas thresholds in order (R96). -/
theorem State.keeps_climateSettings (s : State) (setting g1 g2 g3 limit : Nat)
    (h : s.operating.Ordered → g1 < g2 ∧ g2 < g3) :
    s.Keeps { s with climate := { s.climate with
      setting := setting, g1 := g1, g2 := g2, g3 := g3, deviationLimit := limit } } :=
  { clock := rfl, power := rfl, pending := rfl, boards := rfl, links := .refl _, staging := id, keys := id, records := id
    forecasts := id, oneEach := id
    ordered := fun o =>
      ⟨⟨o.working.scenes, (h o.working).1, (h o.working).2, o.working.limits⟩, o.stored, o.saving⟩
    lamps := State.lamps_of_eq rfl fun _ => rfl, caps := id }

theorem ownCyclePeriod_sound (a : CyclePeriodArgs) (s : State) : (ownCyclePeriod a s).Sound s := by
  unfold ownCyclePeriod
  refine .same (State.Keeps.callSound ?_) _
  exact s.keeps_climateSettings _ s.climate.g1 s.climate.g2 s.climate.g3 s.climate.deviationLimit
    fun o => ⟨o.gas12, o.gas23⟩

theorem ownClimateSettings_sound (a : ClimateSettingsArgs) (s : State) : (ownClimateSettings a s).Sound s := by
  unfold ownClimateSettings
  refine .same (State.Keeps.callSound ?_) _
  refine s.keeps_climateSettings s.climate.setting _ _ _ _ fun _ => ?_
  exact ⟨Nat.lt_of_succ_le (Nat.le_max_left _ _), Nat.lt_of_succ_le (Nat.le_max_left _ _)⟩

theorem ownZoneRead_sound (a : IndexArgs) (s : State) : (ownZoneRead a s).Sound s := by
  unfold ownZoneRead; split
  · exact .turnedAway s _
  · exact .report s _

/-! ### Budget -/

theorem ownCapSet_sound (a : CapSetArgs) (s : State) : (ownCapSet a s).Sound s :=
  ⟨(s.keeps_setCap _).callSound, fun t => (t.keeps_passIfCapChanged s).callSound⟩

theorem ownCapClear_sound (a : Unit) (s : State) : (ownCapClear a s).Sound s :=
  ⟨(s.keeps_setCap _).callSound, fun t => (t.keeps_passIfCapChanged s).callSound⟩

theorem ownRatingsWrite_sound (a : RatingsArgs) (s : State) : (ownRatingsWrite a s).Sound s := by
  unfold ownRatingsWrite
  split
  · exact .turnedAway s _
  · refine ⟨State.Keeps.callSound ?_, fun t => ?_⟩
    · exact State.keeps_plain rfl rfl rfl rfl rfl rfl rfl rfl rfl rfl rfl rfl
    dsimp only
    split
    · exact .refl t
    · exact t.keeps_passAndHand.callSound

theorem State.keeps_stageTimes (s : State) (on off : Nat) :
    s.Keeps { s with budget := { s.budget with minOn := on, minOff := off } } :=
  { clock := rfl, power := rfl, pending := rfl, boards := rfl, links := .refl _, staging := id, keys := id
    records := id, forecasts := id, oneEach := id
    ordered := fun o => ⟨⟨o.working.scenes, o.working.gas12, o.working.gas23, o.working.limits⟩, o.stored, o.saving⟩
    lamps := State.lamps_of_eq rfl fun _ => rfl, caps := id }

theorem ownStageTimes_sound (a : StageTimesArgs) (s : State) : (ownStageTimes a s).Sound s := by
  unfold ownStageTimes
  refine ⟨(s.keeps_stageTimes _ _).callSound, fun t => ?_⟩
  dsimp only
  exact t.keeps_stageChecks.callSound

/-! ### Lighting -/

theorem State.groupCall_sound (s : State) (g : Fin 24) (x : Group) (r : Reply)
    (h : (s.lighting.groups.get g).Capped → x.output ≤ x.granted) : (s.groupCall g x r).Sound s := by
  refine ⟨?_, fun t => (Handed.keeps_settle (t, _)).callSound⟩
  show s.CallSound (s.groupsDo [g] fun s g _ => recomputed s g x).1
  have e : (s.groupsDo [g] fun s g _ => recomputed s g x).1
      = s.setGroup g ((recomputed s g x).requesting (s.scene g)) := s.putGroup_state g (recomputed s g x)
  rw [e]
  exact (s.keeps_putGroup g _ (recomputed_lawful s g x) fun c => Group.recompute_capped _ _ (h c)).callSound

theorem Group.reconfigured_capped {x : Group} (c : GroupConfig) (h : x.Capped) :
    (x.reconfigured c).output ≤ (x.reconfigured c).granted := by
  unfold Group.reconfigured
  dsimp only
  split
  · exact Nat.zero_le _
  · split <;> exact h.output

theorem ownGroupConfig_sound (a : GroupConfigArgs) (s : State) : (ownGroupConfig a s).Sound s := by
  unfold ownGroupConfig
  split
  · dsimp only
    split
    · exact .turnedAway s _
    · split
      · exact .turnedAway s _
      · exact s.groupCall_sound _ _ _ fun c => Group.reconfigured_capped _ c
  · exact .turnedAway s _

theorem State.keeps_lightSettings (s : State) (lux gain : Nat) :
    s.Keeps { s with lighting := { s.lighting with luxStart := lux, gain := gain } } :=
  { clock := rfl, power := rfl, pending := rfl, boards := rfl, links := .refl _, staging := id, keys := id
    records := id, forecasts := id, oneEach := id
    ordered := fun o => ⟨⟨o.working.scenes, o.working.gas12, o.working.gas23, o.working.limits⟩, o.stored, o.saving⟩
    lamps := State.lamps_of_eq rfl fun _ => rfl, caps := id }

theorem ownLightSettings_sound (a : LightSettingsArgs) (s : State) : (ownLightSettings a s).Sound s := by
  unfold ownLightSettings
  exact .same (s.keeps_lightSettings _ _).callSound _

theorem ownGroupOverride_sound (a : GroupOverrideArgs) (s : State) : (ownGroupOverride a s).Sound s := by
  unfold ownGroupOverride
  split
  · exact .turnedAway s _
  · dsimp only
    split
    · exact .turnedAway s _
    · exact s.groupCall_sound _ _ _ fun c => c.output

theorem ownGroupRelease_sound (a : IndexArgs) (s : State) : (ownGroupRelease a s).Sound s := by
  unfold ownGroupRelease
  split
  · exact .turnedAway s _
  · dsimp only
    split
    · exact s.groupCall_sound _ _ _ fun c => c.output
    · exact .same (.refl s) _

theorem ownGroupRead_sound (a : IndexArgs) (s : State) : (ownGroupRead a s).Sound s := by
  unfold ownGroupRead; split
  · exact .turnedAway s _
  · exact .report s _

/-! ### Lines -/

theorem ownLineConfig_sound (a : LineConfigArgs) (s : State) : (ownLineConfig a s).Sound s := by
  unfold ownLineConfig
  split
  · split
    · dsimp only
      split
      · exact .turnedAway s _
      · refine ⟨(s.keeps_setLine _ _).callSound, fun t => ?_⟩
        dsimp only
        split
        · exact .refl t
        · exact ((t.keeps_unbound _).trans (State.keeps_newlyBound _ _)).callSound
    · exact .turnedAway s _
  · exact .turnedAway s _

theorem ownLineDrive_sound (a : LineDriveArgs) (s : State) : (ownLineDrive a s).Sound s := by
  unfold ownLineDrive
  split
  · exact .turnedAway s _
  · dsimp only
    split
    · exact .same (s.keeps_setLine _ _).callSound _
    · exact .turnedAway s _

theorem ownLineRead_sound (a : IndexArgs) (s : State) : (ownLineRead a s).Sound s := by
  unfold ownLineRead; split
  · exact .turnedAway s _
  · exact .report s _

/-! ### Links, store and accounts -/

/-- The enables and a RESTART accepted: no queue, no flag and no setting whose order counts. -/
theorem State.callSound_interface (s : State) (x : LinkInterface) (hf : x.flags = s.links.flags)
    (hl : ∀ l, x.link l = s.links.link l) : s.CallSound { s with links := x } where
  clock     := rfl
  pending   := rfl
  boards    := rfl
  flags     := fun f k => by
    unfold LinkInterface.isSet at k ⊢
    dsimp only
    rw [hf]; exact k
  bounded   := fun b => ⟨b.second, b.tick, fun l => by dsimp only; rw [hl]; exact b.queues l, b.staging, b.keys, b.records,
    b.forecasts, b.oneEach⟩
  ordered   := fun o => ⟨⟨o.working.scenes, o.working.gas12, o.working.gas23, o.working.limits⟩, o.stored, o.saving⟩
  lamps     := State.lamps_of_eq rfl fun _ => rfl
  caps      := id
  receivers := fun l => by dsimp only; rw [hl]; exact ⟨rfl, rfl⟩

theorem ownFlagsEnable_sound (a : FlagSetArgs) (s : State) : (ownFlagsEnable a s).Sound s := by
  unfold ownFlagsEnable
  refine .same ?_ _
  exact s.callSound_interface _ rfl fun l => by cases l <;> rfl

/-- The Settings Store replaced by one whose copies and snapshots are as ordered as its own. -/
theorem State.keeps_setStore (s : State) (x : Store) (hc : s.SettingsOrdered → x.operCopy.Ordered)
    (hs : s.SettingsOrdered → ∀ y ∈ x.saving, y.Ordered) : s.Keeps (s.setStore x) :=
  { clock := rfl, power := rfl, pending := rfl, boards := rfl, links := .refl _, staging := id, keys := id, records := id
    forecasts := id, oneEach := id, ordered := fun o => ⟨o.working, hc o, hs o⟩
    lamps := State.lamps_of_eq rfl fun _ => rfl, caps := id }

theorem ownStoreSave_sound (a : StoreSaveArgs) (s : State) : (ownStoreSave a s).Sound s := by
  unfold ownStoreSave
  split
  · exact .turnedAway s _
  · split
    · exact .turnedAway s _
    · split
      · exact .turnedAway s _
      · refine .same (State.Keeps.callSound ?_) _
        refine s.keeps_setStore _ (fun o => o.stored) fun o y hy => ?_
        dsimp only at hy
        cases ha : a.operating <;> cases hb : a.commissioning <;> simp_all
        all_goals subst hy
        all_goals simp_all [Saving.Ordered]
        all_goals exact o.working

theorem ownRestart_sound (l : Link) (a : RestartArgs) (s : State) : (ownRestart l a s).Sound s := by
  unfold ownRestart; split
  · exact .turnedAway s _
  · refine .same ?_ _
    exact s.callSound_interface _ rfl fun l => by cases l <;> rfl

theorem ownShiftRead_sound (a : ShiftReadArgs) (s : State) : (ownShiftRead a s).Sound s := by
  unfold ownShiftRead; split
  · exact .turnedAway s _
  · exact .report s _
  · exact .report s _

/-! ### The store's own events -/

theorem State.keeps_finishSave (s : State) (r : SaveResult) : s.Keeps (s.finishSave r) := by
  unfold State.finishSave
  refine State.Keeps.trans ?_ (State.keeps_notify _ _ _)
  exact s.keeps_setStore _ (fun o => o.stored) fun _ y hy => by cases hy

theorem State.keeps_afterCommissioning (s : State) (r : AreaResult) (next : Option Operating)
    (h : s.SettingsOrdered → ∀ x ∈ next, x.Ordered) : s.Keeps (s.afterCommissioning r next) := by
  cases next with
  | none => exact s.keeps_finishSave _
  | some x =>
    unfold State.afterCommissioning
    refine s.keeps_setStore _ (fun o => o.stored) fun o y hy => ?_
    cases hy
    exact h o x rfl

theorem State.keeps_spoilCommissioning (s : State) : s.Keeps s.spoilCommissioning := by
  unfold State.spoilCommissioning
  refine State.Keeps.trans ?_ (State.keeps_raise _ _)
  exact s.keeps_setStore _ (fun o => o.stored) fun o => o.saving

theorem State.keeps_spoilOperating (s : State) : s.Keeps s.spoilOperating := by
  unfold State.spoilOperating
  refine State.Keeps.trans ?_ (State.keeps_raise _ _)
  exact s.keeps_setStore _ (fun _ => trivial) fun o => o.saving

theorem State.keeps_areaWritten (s : State) (agrees : Bool) : s.Keeps (s.areaWritten agrees) := by
  unfold State.areaWritten
  split
  · exact .refl s
  · rename_i snapshot next h
    split
    · refine State.Keeps.trans ?_ (State.keeps_afterCommissioning _ _ _ fun o => ?_)
      · exact s.keeps_setStore _ (fun o => o.stored) fun o => o.saving
      · exact o.saving _ h
    · refine State.Keeps.trans s.keeps_spoilCommissioning (State.keeps_afterCommissioning _ _ _ fun o => ?_)
      exact o.saving _ h
  · rename_i snapshot done h
    split
    · refine State.Keeps.trans ?_ (State.keeps_finishSave _ _)
      exact s.keeps_setStore _ (fun o => o.saving _ h) fun o => o.saving
    · exact s.keeps_spoilOperating.trans (State.keeps_finishSave _ _)

theorem State.keeps_seeKey (s : State) (key : Bool) : s.Keeps (s.seeKey key) := by
  have h : s.Keeps (s.setStore { s.store with key := key }) := s.keeps_setStore _ (fun o => o.stored) fun o => o.saving
  unfold State.seeKey
  dsimp only
  split
  · rename_i e
    refine (h.trans (State.keeps_spoilCommissioning _)).trans (State.keeps_afterCommissioning _ _ _ fun o => ?_)
    exact o.saving _ e
  · exact h

theorem State.keeps_cutShort (s : State) : s.Keeps s.cutShort := by
  unfold State.cutShort
  split
  · exact .refl s
  · exact s.keeps_setStore _ (fun o => o.stored) fun _ y hy => by cases hy
  · exact s.keeps_setStore _ (fun _ => trivial) fun _ y hy => by cases hy

end Sys2Proof.Machine
end

