-- ==== Sys2Proof/Laws/Doors.lean ====
section
/-! SUPPORT. What the Door Unit's shared operations can do, said once: the batch check, a record offered, the comparison of
the OPEN doors with the long-open limit, and the services of the allocator
for a curtain that stands IDLE and what they do to the other curtains. -/

namespace Sys2Proof.Machine

/-! ### The door event queue (R58 to R60) -/

/-- Some states differ in the door event queue and the links alone. -/
def State.QueueOnly (s t : State) : Prop :=
  t = { s with doors := { s.doors with queue := t.doors.queue }, links := t.links }

theorem State.QueueOnly.refl (s : State) : s.QueueOnly s := rfl

theorem State.QueueOnly.trans {s t u : State} (h : s.QueueOnly t) (k : t.QueueOnly u) : s.QueueOnly u := by
  unfold State.QueueOnly at *
  rw [h] at k
  exact k

theorem State.queueOnly_offerBatches (fuel n : Nat) (s : State) : s.QueueOnly (State.offerBatches fuel n s) := by
  induction fuel generalizing s with
  | zero => exact .refl s
  | succ fuel ih =>
    unfold State.offerBatches; dsimp only
    split
    · refine .trans ?_ (ih _)
      exact rfl
    · exact .refl s

theorem State.queueOnly_batchCheck (s : State) : s.QueueOnly s.batchCheck := by
  unfold State.batchCheck; split
  · exact State.queueOnly_offerBatches _ _ s
  · exact .refl s

theorem State.queueOnly_offerRecord (s : State) (r : DoorRecord) : s.QueueOnly (s.offerRecord r) := by
  unfold State.offerRecord
  refine .trans ?_ (State.queueOnly_batchCheck _)
  split <;> exact rfl

/-- What a record offered, and the batch check after it, leave does not depend on the channels. -/
theorem State.offerRecord_channels (s : State) (c : Table 32 Channel) (r : DoorRecord) :
    State.offerRecord { s with doors := { s.doors with channels := c } } r
      = { s.offerRecord r with doors := { (s.offerRecord r).doors with channels := c } } := by
  have batches : ∀ (fuel n : Nat) (t : State), State.offerBatches fuel n { t with doors := { t.doors with channels := c } }
      = { State.offerBatches fuel n t with doors := { (State.offerBatches fuel n t).doors with channels := c } } := by
    intro fuel
    induction fuel with
    | zero => intros; rfl
    | succ k ih =>
      intro n t
      unfold State.offerBatches; dsimp only
      split
      · exact ih n { t with
          doors := { t.doors with queue := t.doors.queue.drop n }
          links := t.links.setLink .supervisor (t.links.supervisor.offerAll (batchRun (t.doors.queue.take n))) }
      · rfl
  have check (t : State) : State.batchCheck { t with doors := { t.doors with channels := c } }
      = { t.batchCheck with doors := { t.batchCheck.doors with channels := c } } := by
    unfold State.batchCheck; dsimp only
    split
    · exact batches _ _ t
    · rfl
  unfold State.offerRecord; dsimp only
  split
  · exact check { s with doors := { s.doors with queue := s.doors.queue ++ [r] } }
  · exact check (s.raise .queueOverrun)

/-- With the notices off the batch check does nothing (R61). -/
theorem State.batchCheck_silent (s : State) (h : s.doors.notices = false) : s.batchCheck = s := by
  simp [State.batchCheck, h]

/-- With the notices off a record joins the end of a queue that holds fewer than 64 (R58, R61). -/
theorem State.offerRecord_silent (s : State) (r : DoorRecord) (h : s.doors.notices = false) :
    (s.offerRecord r).doors.queue = s.doors.queue ++ if s.doors.queue.length < 64 then [r] else [] := by
  unfold State.offerRecord
  rw [State.batchCheck_silent]
  · by_cases k : s.doors.queue.length < 64 <;> simp [Config.doorRecords, State.raise, k]
  · split
    · exact h
    · exact h

/-! ### OPEN doors compared with the limit (R47) -/

/-- A door compared: exactly where it is OPEN and its count has reached the limit it becomes HELD, its record offered and
DOOR_HELD delivered. -/
theorem State.compareDoor_eq (s : State) (d : Fin 32) :
    s.compareDoor d =
      (if (s.channel d).state = .opened ∧ s.reachesLimit (s.channel d).interval = true then
        ((s.setChannel d { s.channel d with state := .held }).offerRecord
          ⟨d, .held, s.clock.weekSecond, s.phase, none⟩).raise .doorHeld
      else s) := by
  unfold State.compareDoor State.capture; dsimp only [captureBit, if_true]; rfl

/-- A channel as the comparison leaves it. -/
def Channel.compared (x : Channel) (s : State) : Channel :=
  { x with state := if x.state = .opened ∧ s.reachesLimit x.interval = true then .held else x.state }

/-- The doors the comparison makes HELD. -/
def State.reaching (s : State) (d : Fin 32) : Bool :=
  decide ((s.channel d).state = .opened) && s.reachesLimit (s.channel d).interval

theorem Channel.compared_self (x : Channel) (s : State) (h : ¬ (x.state = .opened ∧ s.reachesLimit x.interval = true)) :
    x.compared s = x := by
  unfold Channel.compared; rw [if_neg h]

/-- What a comparison of the doors changes: the channels' states as `Channel.compared` gives them, the door event queue and
the links; DOOR_HELD is set where a door became HELD, and with the notices off each such door's record joins the end of the
queue, in the order of the doors, while it holds fewer than 64 (R47, R58). -/
structure State.Compares (s t : State) (l : List (Fin 32)) : Prop where
  only    : t = { s with
              doors := { s.doors with
                channels := s.doors.channels.mapIdx fun d x => if d ∈ l then x.compared s else x
                queue := t.doors.queue }
              links := t.links }
  links   : s.links.Grows t.links
  flag    : (∃ d ∈ l, s.reaching d = true) → t.links.isSet .doorHeld = true
  nothing : (∀ d ∈ l, s.reaching d = false) → t = s
  silent  : s.doors.notices = false → t.doors.queue = s.doors.queue
              ++ ((l.filter s.reaching).map fun d => ⟨d, .held, s.clock.weekSecond, s.phase, none⟩).take
                  (64 - s.doors.queue.length)

theorem State.compares_nil (s : State) : s.Compares s [] where
  only    := by
    have : (s.doors.channels.mapIdx fun d x => if d ∈ ([] : List (Fin 32)) then x.compared s else x) = s.doors.channels :=
      Table.ext_get fun d => by simp
    rw [this]
  links   := .refl _
  flag    := by simp
  nothing := fun _ => rfl
  silent  := fun _ => by simp

/-- One door more compared. -/
theorem State.Compares.next {s t : State} {l : List (Fin 32)} (h : s.Compares t l) (d : Fin 32) (hd : d ∉ l) :
    s.Compares (t.compareDoor d) (l ++ [d]) := by
  have hc : t.calendar = s.calendar := by rw [h.only]
  have hk : t.clock = s.clock := by rw [h.only]
  have hn : t.doors.notices = s.doors.notices := by rw [h.only]
  have hch : ∀ e, t.channel e = if e ∈ l then (s.channel e).compared s else s.channel e := by
    intro e; rw [h.only]; simp [State.channel]
  have hx : t.channel d = s.channel d := by rw [hch, if_neg hd]
  have hp : t.phase = s.phase := by unfold State.phase; rw [hc]
  have hr : ∀ n, t.reachesLimit n = s.reachesLimit n := by
    intro n; unfold State.reachesLimit State.paramsOf; rw [hp, hc]
  have grows : t.links.Grows (t.compareDoor d).links := (t.keeps_compareDoor d).links
  by_cases c : (s.channel d).state = .opened ∧ s.reachesLimit (s.channel d).interval = true
  · have e : t.compareDoor d = ((t.setChannel d { s.channel d with state := .held }).offerRecord
        ⟨d, .held, s.clock.weekSecond, s.phase, none⟩).raise .doorHeld := by
      rw [State.compareDoor_eq, hx, hr, if_pos c, hk, hp]
    have hs : s.reaching d = true := by simp [State.reaching, c]
    constructor
    · have q := (t.setChannel d { s.channel d with state := .held }).queueOnly_offerRecord
        ⟨d, .held, s.clock.weekSecond, s.phase, none⟩
      have q' : t.compareDoor d = { t with
          doors := { t.doors with
            channels := t.doors.channels.set d { s.channel d with state := .held }
            queue := (t.compareDoor d).doors.queue }
          links := (t.compareDoor d).links } := by
        rw [e]
        conv_lhs => rw [q]
        rfl
      have hm : (t.doors.channels.set d { s.channel d with state := .held })
          = s.doors.channels.mapIdx fun e x => if e ∈ l ++ [d] then x.compared s else x := by
        apply Table.ext_get; intro i
        have hi := hch i
        unfold State.channel at hi
        rw [Table.get_set, Table.get_mapIdx, hi]
        by_cases id : d = i
        · subst id
          have : Channel.compared (s.doors.channels.get d) s = { s.doors.channels.get d with state := .held } := by
            have k := c
            unfold State.channel at k
            unfold Channel.compared
            rw [if_pos k]
          simp [this, State.channel]
        · have : ¬ i = d := fun x => id x.symm
          simp [id, this]
      rw [hm] at q'
      exact q'.trans (congrArg (fun u : State => { u with
        doors := { u.doors with
          channels := s.doors.channels.mapIdx fun e (x : Channel) => if e ∈ l ++ [d] then x.compared s else x
          queue := (t.compareDoor d).doors.queue }
        links := (t.compareDoor d).links }) h.only)
    · exact h.links.trans grows
    · intro _
      rw [e]
      simp [State.raise, LinkInterface.isSet_raise]
    · intro k
      have := k d (by simp)
      rw [hs] at this
      cases this
    · intro silent
      have hq := (t.setChannel d { s.channel d with state := .held }).offerRecord_silent
        ⟨d, .held, s.clock.weekSecond, s.phase, none⟩ (hn.trans silent)
      have : (t.compareDoor d).doors.queue = t.doors.queue
          ++ if t.doors.queue.length < 64 then [⟨d, .held, s.clock.weekSecond, s.phase, none⟩] else [] := by
        rw [e]; exact hq
      rw [this, h.silent silent, List.filter_append, List.map_append]
      simp only [List.filter_cons, List.filter_nil, hs, if_true, List.map_cons, List.map_nil, List.append_assoc,
        List.length_append, List.length_take, List.take_append, List.length_map]
      congr 2
      by_cases room : s.doors.queue.length + (l.filter s.reaching).length < 64
      · have : 64 - s.doors.queue.length - (l.filter s.reaching).length ≠ 0 := by omega
        obtain ⟨m, hm⟩ := Nat.exists_eq_succ_of_ne_zero this
        rw [if_pos (by omega), hm]; simp
      · rw [if_neg (by omega), show 64 - s.doors.queue.length - (l.filter s.reaching).length = 0 by omega]; simp
  · have e : t.compareDoor d = t := by rw [State.compareDoor_eq, hx, hr, if_neg c]
    have hs : s.reaching d = false := by
      simp only [State.reaching, Bool.and_eq_false_iff, decide_eq_false_iff_not]
      by_cases a : (s.channel d).state = .opened
      · exact .inr (by simpa [a] using c)
      · exact .inl a
    rw [e]
    constructor
    · have hm : (s.doors.channels.mapIdx fun e x => if e ∈ l then x.compared s else x)
          = s.doors.channels.mapIdx fun e x => if e ∈ l ++ [d] then x.compared s else x := by
        apply Table.ext_get; intro i
        simp only [Table.get_mapIdx, List.mem_append, List.mem_singleton]
        by_cases id : i = d
        · subst id
          have := Channel.compared_self (s.doors.channels.get i) s c
          simp [hd, this]
        · simp [id]
      rw [← hm]; exact h.only
    · exact h.links
    · rintro ⟨i, hi, k⟩
      rw [List.mem_append, List.mem_singleton] at hi
      rcases hi with hi | rfl
      · exact h.flag ⟨i, hi, k⟩
      · rw [hs] at k; cases k
    · exact fun k => h.nothing fun i hi => k i (List.mem_append_left _ hi)
    · intro silent
      rw [h.silent silent, List.filter_append]
      simp [hs]

/-- Every OPEN door compared at once (R47). -/
theorem State.compares_all (s : State) : s.Compares s.compareDoors (indices 32) := by
  have key : ∀ (l m : List (Fin 32)) (t : State), s.Compares t m → (m ++ l).Nodup →
      s.Compares (l.foldl (fun t d => t.compareDoor d) t) (m ++ l) := by
    intro l
    induction l with
    | nil => intro m t h _; simpa using h
    | cons d l ih =>
      intro m t h nd
      have hd : d ∉ m := by
        intro hm
        rw [List.nodup_append] at nd
        exact nd.2.2 d hm d List.mem_cons_self rfl
      have := ih (m ++ [d]) (t.compareDoor d) (h.next d hd) (by simpa using nd)
      simpa using this
  exact key (indices 32) [] s s.compares_nil (List.nodup_finRange 32)

/-! ### The allocator's services for a curtain that stands IDLE (R122, R123) -/

/-- Retrying the waiting curtains leaves an IDLE curtain as it is. -/
theorem State.retryCurtains_idle (s : State) (c : Fin 16) (h : (s.doors.curtains.get c).state = .idle) :
    s.retryCurtains.doors.curtains.get c = s.doors.curtains.get c := by
  have key : ∀ (l : List (Fin 16)) (s : State), (s.doors.curtains.get c).state = .idle →
      (l.foldl (fun s i => s.tryCurtain i) s).doors.curtains.get c = s.doors.curtains.get c := by
    intro l
    induction l with
    | nil => intro s _; rfl
    | cons a l ih =>
      intro s h
      have e : (s.tryCurtain a).doors.curtains.get c = s.doors.curtains.get c := by
        unfold State.tryCurtain; dsimp only; split
        · rename_i k
          by_cases ha : a = c
          · subst ha; exact absurd h k.1
          · simp [State.setCurtain, State.setTotal, ha]
        · rfl
      rw [List.foldl_cons, ih _ (by rw [e]; exact h), e]
  rw [← key (indices 16) s h]
  unfold State.retryCurtains State.forEach
  simp [State.followGrants]

/-- A curtain that goes to IDLE with its release stays so, ungranted (R54, R123). -/
theorem State.curtainRelease_idle (s : State) (c : Fin 16) (h : (s.doors.curtains.get c).state = .idle) :
    (s.curtainRelease c).doors.curtains.get c = { s.doors.curtains.get c with granted := false } := by
  unfold State.curtainRelease; dsimp only
  split
  · rw [State.retryCurtains_idle _ _ (by simp [State.setCurtain, State.setTotal, h])]
    simp [State.setCurtain, State.setTotal]
  · rename_i k
    rw [Bool.not_eq_true] at k
    rw [← k]

/-! ### What the allocator's services for one curtain do to the others (R54, R122, R123) -/

/-- A curtain that is granted in one state is granted in another. -/
def State.KeepsGrant (s t : State) (b : Fin 16) : Prop :=
  (s.doors.curtains.get b).granted = true → (t.doors.curtains.get b).granted = true

theorem State.tryCurtain_others (s : State) (c b : Fin 16) (h : b ≠ c) :
    (s.tryCurtain c).doors.curtains.get b = s.doors.curtains.get b := by
  unfold State.tryCurtain; dsimp only; split
  · simp [State.setCurtain, State.setTotal, Ne.symm h]
  · rfl

theorem State.keepsGrant_tryCurtain (s : State) (c b : Fin 16) : s.KeepsGrant (s.tryCurtain c) b := by
  by_cases h : b = c
  · subst h
    intro k
    simp [State.tryCurtain, k]
  · intro k
    rw [s.tryCurtain_others c b h, k]

theorem State.keepsGrant_retryCurtains (s : State) (b : Fin 16) : s.KeepsGrant s.retryCurtains b := by
  have key (l : List (Fin 16)) : ∀ t, State.KeepsGrant t (l.foldl (fun t c => t.tryCurtain c) t) b := by
    induction l with
    | nil => exact fun _ => id
    | cons c l ih => exact fun t k => ih (t.tryCurtain c) (t.keepsGrant_tryCurtain c b k)
  have h := key (indices 16) s
  unfold State.retryCurtains State.forEach
  generalize (indices 16).foldl (fun t c => t.tryCurtain c) s = t at h ⊢
  exact h

/-- What a curtain hands touches another curtain only by a release, and then only to grant it. -/
theorem State.handCurtain_others (s : State) (c : Fin 16) (h : CurtainHand) (b : Fin 16) (hb : b ≠ c) :
    s.KeepsGrant (s.handCurtain c h) b
    ∧ (h ≠ .release → (s.handCurtain c h).doors.curtains.get b = s.doors.curtains.get b) := by
  cases h with
  | nothing => exact ⟨id, fun _ => rfl⟩
  | demand =>
    have e : (s.handCurtain c .demand).doors.curtains.get b = s.doors.curtains.get b := s.tryCurtain_others c b hb
    exact ⟨fun k => by rw [e, k], fun _ => e⟩
  | release =>
    refine ⟨?_, fun k => absurd rfl k⟩
    show s.KeepsGrant (s.curtainRelease c) b
    unfold State.curtainRelease; dsimp only; split
    · intro k
      refine State.keepsGrant_retryCurtains _ b ?_
      simp [State.setCurtain, State.setTotal, Ne.symm hb, k]
    · exact id

/-- A release is handed only by a curtain that goes to IDLE from another state (R54). -/
theorem Curtain.evaluate_release (x : Curtain) (wanted off : Bool) (h : (x.evaluate wanted off).2 = .release) :
    (x.evaluate wanted off).1.state = .idle ∧ x.state ≠ .idle := by
  unfold Curtain.evaluate at h ⊢
  split at h <;> simp_all <;> split at h <;> simp_all

/-- A curtain's re-evaluation leaves every other curtain its grant, and leaves it whole unless the curtain went to IDLE with a
release (R52, R54, R123). -/
theorem State.reevaluate_others (s : State) (c b : Fin 16) (hb : b ≠ c) :
    s.KeepsGrant (s.reevaluate c) b
    ∧ ((s.doors.curtains.get c).state = .idle ∨ ((s.reevaluate c).doors.curtains.get c).state ≠ .idle →
        (s.reevaluate c).doors.curtains.get b = s.doors.curtains.get b) := by
  obtain ⟨x, hx⟩ : ∃ x, x = s.evaluated c := ⟨_, rfl⟩
  have e : s.reevaluate c = (s.setCurtain c x.1).handCurtain c x.2 := by rw [hx]; rfl
  have hs : ((s.reevaluate c).doors.curtains.get c).state = x.1.state := by
    rw [e, ((s.setCurtain c x.1).grantsOnly_handCurtain c x.2).curtain c |>.1]
    simp [State.setCurtain]
  have hr : x.2 = .release → x.1.state = .idle ∧ (s.doors.curtains.get c).state ≠ .idle := by
    rw [hx]; exact (s.doors.curtains.get c).evaluate_release _ _
  have hg : (s.setCurtain c x.1).doors.curtains.get b = s.doors.curtains.get b := by
    simp [State.setCurtain, Ne.symm hb]
  obtain ⟨k, l⟩ := (s.setCurtain c x.1).handCurtain_others c x.2 b hb
  rw [hs, e]
  refine ⟨fun g => k (by rw [hg, g]), fun h => (l fun r => ?_).trans hg⟩
  obtain ⟨i, n⟩ := hr r
  exact h.elim n fun m => m i

end Sys2Proof.Machine
end

