-- ==== Sys2Proof/Laws/Handing.lean ====
section
/-! SUPPORT. What a transition hands on, said once for each receiver: the control cycle with its mode events (R66, R86, R91),
the retargeting of the lamp groups (R145), and the Door Unit's comparison, zeroing and batch check (R47, R48, R60); and
beside them door activity, which the groups take in the same way (R132). -/

namespace Sys2Proof.Machine

/-! ### Mode events and the control cycle -/

/-- A curtain's two fields that its own events move. -/
def State.curtainStands (s : State) (c : Fin 16) : CurtainState × Option Nat :=
  ((s.doors.curtains.get c).state, (s.doors.curtains.get c).remaining)

theorem State.GrantsOnly.stands {s t : State} (h : s.GrantsOnly t) (c : Fin 16) : t.curtainStands c = s.curtainStands c :=
  Prod.ext (h.curtain c).1 (h.curtain c).2

/-- The forecasts a mode event for a zone leaves (R66). -/
def State.forecastsAfter (s : State) (z : Fin 8) : List Forecast :=
  if s.zoneMode z = .auto then s.doors.forecasts
  else s.doors.forecasts.filter fun f => (s.channel f.door).config.zone ≠ some z

/-- What a mode event for a zone moves, beside what `CycleOnly` allows: the forecasts of the zone's doors, and the curtains
that cover the zone (R66). -/
structure State.ModeMoves (s t : State) (z : Fin 8) (fs : List Forecast) : Prop where
  climate   : t.climate = s.climate
  forecasts : t.doors.forecasts = fs
  curtains  : ∀ c, (s.doors.curtains.get c).config.zone ≠ z → t.curtainStands c = s.curtainStands c

/-- A curtain's re-evaluation moves its own state and remaining run-on alone (R52). -/
theorem State.reevaluate_moves (s : State) (c : Fin 16) :
    (s.reevaluate c).climate = s.climate ∧ (s.reevaluate c).doors.forecasts = s.doors.forecasts
    ∧ ∀ d, d ≠ c → (s.reevaluate c).curtainStands d = s.curtainStands d := by
  have h := State.grantsOnly_handCurtain (s.setCurtain c (s.evaluated c).1) c (s.evaluated c).2
  refine ⟨h.climate, h.windows, fun d hd => (h.stands d).trans ?_⟩
  simp [State.curtainStands, State.setCurtain, Ne.symm hd]

theorem State.doorMode_moves (s : State) (z : Fin 8) : s.ModeMoves (s.doorMode z) z (s.forecastsAfter z) := by
  have key : ∀ (l : List (Fin 16)) (t : State), t.ModeMoves
      (l.foldl (fun (s : State) c => if (s.doors.curtains.get c).config.zone = z then s.reevaluate c else s) t) z
      t.doors.forecasts := by
    intro l
    induction l with
    | nil => exact fun t => ⟨rfl, rfl, fun _ _ => rfl⟩
    | cons c l ih =>
      intro t
      rw [List.foldl_cons]
      by_cases hc : (t.doors.curtains.get c).config.zone = z
      · rw [if_pos hc]
        have h := ih (t.reevaluate c)
        obtain ⟨a, b, k⟩ := t.reevaluate_moves c
        refine ⟨h.climate.trans a, h.forecasts.trans b, fun d hd => ?_⟩
        have hcf := (t.cycleOnly_reevaluate c).curtains d
        exact (h.curtains d (by rw [hcf]; exact hd)).trans (k d (by rintro rfl; exact hd hc))
      · rw [if_neg hc]; exact ih t
  obtain ⟨t, ht⟩ : ∃ t : State, t = { s with doors := { s.doors with forecasts := s.forecastsAfter z } } := ⟨_, rfl⟩
  have h := key (indices 16) t
  have e : s.doorMode z = (indices 16).foldl
      (fun (s : State) c => if (s.doors.curtains.get c).config.zone = z then s.reevaluate c else s) t := by
    rw [ht]; unfold State.doorMode State.forecastsAfter State.forEach; dsimp only
    split <;> rfl
  rw [← e] at h
  have t₁ : t.climate = s.climate := by rw [ht]
  have t₂ : t.doors.forecasts = s.forecastsAfter z := by rw [ht]
  have t₃ : t.doors.curtains = s.doors.curtains := by rw [ht]
  refine ⟨h.climate.trans t₁, h.forecasts.trans t₂, fun c hc => (h.curtains c (by rw [t₃]; exact hc)).trans ?_⟩
  unfold State.curtainStands; rw [t₃]

theorem State.zoneOff_moves (s : State) (z : Fin 8) : (s.zoneOff z).climate = s.climate
    ∧ (s.zoneOff z).doors.forecasts = s.doors.forecasts ∧ ∀ c, (s.zoneOff z).curtainStands c = s.curtainStands c := by
  have h : (s.markOff z).GrantsOnly (s.zoneOff z) := by
    unfold State.zoneOff; dsimp only
    split
    · exact .refl _
    · exact (((State.grantsOnly_setGrant _ z _).trans (State.grantsOnly_setTotal _ _)).trans
        (State.grantsOnly_setReserved _ _)).trans (State.grantsOnly_retryCurtains _)
  exact ⟨h.climate, h.windows, h.stands⟩

theorem State.modeEvent_moves (s : State) (z : Fin 8) : s.ModeMoves (s.modeEvent z) z (s.forecastsAfter z) := by
  have h := s.doorMode_moves z
  unfold State.modeEvent; dsimp only
  split
  · obtain ⟨a, b, k⟩ := (s.doorMode z).zoneOff_moves z
    exact ⟨a.trans h.climate, b.trans h.forecasts, fun c hc => (k c).trans (h.curtains c hc)⟩
  · exact h

/-- What a control cycle leaves, beside `CycleOnly`: the climate records of the cycle, its demand set, the forecasts without
those of a zone whose mode changed to another than AUTO, and the curtains as they stood where their zone's mode is
unchanged (R66, R86, R91, R104). -/
structure State.Cycles (s t : State) : Prop where
  climate   : t.climate = s.cycledClimate
  demand    : t.budget.demand = some s.cycledClimate.demandSet
  forecasts : t.doors.forecasts = s.doors.forecasts.filter fun f =>
                ∀ z, (s.channel f.door).config.zone = some z → t.zoneMode z = s.zoneMode z ∨ t.zoneMode z = .auto
  curtains  : ∀ c, t.zoneMode (s.doors.curtains.get c).config.zone = s.zoneMode (s.doors.curtains.get c).config.zone →
                t.curtainStands c = s.curtainStands c

/-- The mode events of a cycle, in the order of the zones: what they leave of the forecasts and the curtains. -/
theorem State.modeEvents_move (s : State) (l : List (Fin 8)) (t u : State)
    (hu : u = l.foldl (fun t z => if t.zoneMode z = s.zoneMode z then t else t.modeEvent z) t) :
    u.climate = t.climate
    ∧ u.doors.forecasts = (t.doors.forecasts.filter fun f =>
        ∀ z ∈ l, (t.channel f.door).config.zone = some z → t.zoneMode z = s.zoneMode z ∨ t.zoneMode z = .auto)
    ∧ ∀ c, t.zoneMode (t.doors.curtains.get c).config.zone = s.zoneMode (t.doors.curtains.get c).config.zone →
        u.curtainStands c = t.curtainStands c := by
  subst hu
  induction l generalizing t with
  | nil => exact ⟨rfl, by simp, fun _ _ => rfl⟩
  | cons z l ih =>
    rw [List.foldl_cons]
    by_cases hz : t.zoneMode z = s.zoneMode z
    · rw [if_pos hz]
      obtain ⟨a, b, k⟩ := ih t
      refine ⟨a, b.trans (List.filter_congr fun f _ => ?_), k⟩
      simp [hz]
    · rw [if_neg hz]
      obtain ⟨a, b, k⟩ := ih (t.modeEvent z)
      have h := t.modeEvent_moves z
      have hm : ∀ y, (t.modeEvent z).zoneMode y = t.zoneMode y := fun y => by unfold State.zoneMode; rw [h.climate]
      have hch : ∀ d, (t.modeEvent z).channel d = t.channel d := fun d => by
        unfold State.channel; rw [(t.cycleOnly_modeEvent z).channels]
      refine ⟨a.trans h.climate, ?_, fun c hc => ?_⟩
      · rw [b, h.forecasts]
        unfold State.forecastsAfter
        simp only [hm, hch]
        by_cases ha : t.zoneMode z = .auto
        · rw [if_pos ha]
          exact List.filter_congr fun f _ => by simp [ha]
        · rw [if_neg ha, List.filter_filter]
          refine List.filter_congr fun f _ => ?_
          simp [ha, hz, Bool.and_comm]
      · have hcf := (t.cycleOnly_modeEvent z).curtains c
        exact (k c (by rw [hm, hcf]; exact hc)).trans (h.curtains c (by rintro rfl; exact hz hc))

/-- What a control cycle can do (R91). -/
theorem State.cycle_spec (s : State) : s.Cycles s.cycle := by
  have h₁ : State.GrantsOnly { s with climate := s.cycledClimate }
      (({ s with climate := s.cycledClimate } : State).forEach 8 fun z t => t.reportDegraded s z).reportDeviation :=
    (State.GrantsOnly.forEach (fun z t => t.grantsOnly_reportDegraded s z) _).trans (State.grantsOnly_reportDeviation _)
  generalize ht : (({ s with climate := s.cycledClimate } : State).forEach 8
    fun z t => t.reportDegraded s z).reportDeviation = t at h₁
  generalize hu : (indices 8).foldl (fun (t : State) z => if t.zoneMode z = s.zoneMode z then t else t.modeEvent z) t = u
  obtain ⟨a, b, k⟩ := s.modeEvents_move (indices 8) t u hu.symm
  have e : s.cycle = u.takeDemand u.climate.demandSet := by rw [← hu, ← ht]; rfl
  generalize hv : ({ u with budget := { u.budget with demand := some u.climate.demandSet } } : State) = v
  have h₃ : v.GrantsOnly s.cycle := by rw [e, ← hv]; exact State.grantsOnly_passAndHand _
  have v₁ : v.climate = u.climate := by rw [← hv]
  have v₂ : v.budget.demand = some u.climate.demandSet := by rw [← hv]
  have v₃ : v.doors = u.doors := by rw [← hv]
  clear e hu ht hv
  generalize s.cycle = r at h₃ ⊢
  have hc : u.climate = s.cycledClimate := a.trans h₁.climate
  have hr : r.climate = s.cycledClimate := h₃.climate.trans (v₁.trans hc)
  have mode : ∀ z, t.zoneMode z = r.zoneMode z := fun z =>
    congrArg (fun c : Climate => (c.zones.get z).mode) (h₁.climate.trans hr.symm)
  refine ⟨hr, by rw [h₃.demand, v₂, hc], ?_, fun c hz => ?_⟩
  · have hw : t.doors.forecasts = s.doors.forecasts := h₁.windows
    have hch : ∀ d, t.channel d = s.channel d := fun d => by unfold State.channel; rw [h₁.channels]
    rw [h₃.windows, v₃, b, hw]
    refine List.filter_congr fun f _ => ?_
    simp only [hch, mode]
    simp [indices]
  · have hcf : (t.doors.curtains.get c).config = (s.doors.curtains.get c).config := h₁.curtains c
    have q : v.curtainStands c = u.curtainStands c := by unfold State.curtainStands; rw [v₃]
    exact (h₃.stands c).trans (q.trans ((k c (by rw [hcf, mode]; exact hz)).trans (h₁.stands c)))

/-! ### The lamp groups retargeted (R145) -/

/-- A group recomputed has the trim and the desired level of the scene, and keeps what the recomputation only reads. -/
theorem Group.recompute_spec (x : Group) (sc : Scene) (d : Daylight) :
    (x.recompute sc d).config = x.config ∧ (x.recompute sc d).state = x.state ∧ (x.recompute sc d).hold = x.hold
    ∧ (x.recompute sc d).override = x.override ∧ (x.recompute sc d).lastOccupancy = x.lastOccupancy
    ∧ (x.recompute sc d).trim = x.trimNow sc d ∧ (x.recompute sc d).desired = x.desiredNow sc d := by
  unfold Group.recompute Group.followTarget
  split
  · rename_i h; simp [Group.trimNow, Group.desiredNow, h]
  · split <;> simp

/-- A retargeting is every group's record recomputed with its request recorded and the dimmers set to the outputs, then what
the allocator and the groups do with the requests. -/
theorem State.retarget_spec (s : State) : State.GrantsOnly
    { s with
      lighting := { s.lighting with groups := s.lighting.groups.mapIdx fun g x =>
        (x.recompute (s.scene g) s.lighting.taken).requesting (s.scene g) }
      lines := { s.lines with dimmers := s.lines.dimmers.mapIdx fun g _ =>
        ((s.lighting.groups.get g).recompute (s.scene g) s.lighting.taken).output } } s.retarget := by
  have e := State.groupsDo_each recomputed (fun g x => x.recompute (s.scene g) s.lighting.taken) s (by
    intro u g x hc ht; unfold recomputed State.scene State.sceneOf State.phase; rw [hc, ht])
    (indices 24) (List.nodup_finRange 24)
  have h : (s.groupsDo (indices 24) recomputed).1.GrantsOnly s.retarget := Handed.grantsOnly_settle _
  rw [e] at h
  simpa [indices] using h

/-- Door activity is an occupancy event of each group it reaches, recomputed with its request recorded and its dimmer set to
the output, then what the allocator and the groups do with the requests (R132, R133). -/
theorem State.doorActivity_spec (s : State) (z : Fin 8) (gs : List (Fin 24))
    (hgs : gs = (indices 24).filter fun g =>
      (s.lighting.groups.get g).takesOccupancy && (s.lighting.groups.get g).config.doorLinked
        && decide ((s.lighting.groups.get g).config.zone = z)) :
    State.GrantsOnly
      { s with
        lighting := { s.lighting with groups := s.lighting.groups.mapIdx fun g x =>
          if g ∈ gs then (x.occupied.recompute (s.scene g) s.lighting.taken).requesting (s.scene g) else x }
        lines := { s.lines with dimmers := s.lines.dimmers.mapIdx fun g n =>
          if g ∈ gs then ((s.lighting.groups.get g).occupied.recompute (s.scene g) s.lighting.taken).output else n } }
      (s.doorActivity z) := by
  have e := State.groupsDo_each (fun s g x => recomputed s g x.occupied)
    (fun g x => x.occupied.recompute (s.scene g) s.lighting.taken) s
    (by intro u g x hc ht; unfold recomputed State.scene State.sceneOf State.phase; rw [hc, ht])
    gs (hgs ▸ (List.nodup_finRange 24).filter _)
  have h : (s.groupsDo gs fun s g x => recomputed s g x.occupied).1.GrantsOnly (s.doorActivity z) := by
    unfold State.doorActivity; dsimp only
    rw [hgs]
    exact Handed.grantsOnly_settle _
  rwa [e] at h

/-! ### A transition handed to the Door Unit -/

/-- What the Door Unit makes of a transition from the phase `before`, `mark` saying that a shift-start match caused it:
channels compared with the limit (R47) and, with `mark`, their tallies zeroed (R48); records of the HELD doors alone join the
queue where the notices are off, and with no door HELD the queue moves only by the batch check of R60. -/
structure State.DoorTakes (s t : State) (before : Phase) (mark : Bool) : Prop where
  only     : t = { s with doors := { s.doors with channels := t.doors.channels, queue := t.doors.queue }, links := t.links }
  links    : s.links.Grows t.links
  channels : ∀ d, t.channel d =
               if mark then { (s.channel d).compared s with openings := 0, openSeconds := 0, longest := 0 }
               else (s.channel d).compared s
  flag     : (∃ d, s.reaching d = true) → t.links.isSet .doorHeld = true
  records  : (∀ d, s.reaching d = false) →
               ¬ (busyClass before = true ∧ busyClass s.phase = false ∧ s.doors.quiet < s.doors.busy) →
               t.doors.queue = s.doors.queue
  silent   : s.doors.notices = false → t.doors.queue = s.doors.queue
               ++ (((indices 32).filter s.reaching).map fun d => ⟨d, .held, s.clock.weekSecond, s.phase, none⟩).take
                   (64 - s.doors.queue.length)

theorem State.doorTransition_spec (s : State) (before : Phase) (mark : Bool) :
    s.DoorTakes (s.doorTransition before mark) before mark := by
  have hc := s.compares_all
  have grows : s.links.Grows (s.doorTransition before mark).links := (s.keeps_doorTransition before mark).links
  generalize hv : s.compareDoors = v at hc
  generalize hw : (if mark then v.zeroTallies else v) = w
  have e : s.doorTransition before mark
      = if busyClass before ∧ busyClass w.phase = false ∧ w.doors.quiet < w.doors.busy then w.batchCheck else w := by
    rw [← hw, ← hv]; rfl
  have wv : w = { v with doors := { v.doors with channels := w.doors.channels } } := by
    rw [← hw]; split <;> rfl
  have ws : w = { s with doors := { s.doors with channels := w.doors.channels, queue := v.doors.queue }, links := v.links } := by
    refine wv.trans ?_
    generalize w.doors.channels = x
    exact congrArg (fun u : State => { u with doors := { u.doors with channels := x } }) hc.only
  have wch : ∀ d, w.channel d =
      if mark then { (s.channel d).compared s with openings := 0, openSeconds := 0, longest := 0 }
      else (s.channel d).compared s := by
    intro d
    have : v.channel d = (s.channel d).compared s := by rw [hc.only]; simp [State.channel, indices]
    rw [← hw]
    cases mark
    · exact this
    · simp [State.zeroTallies, State.channel] at this ⊢
      simp [this]
  have wp : w.phase = s.phase ∧ w.doors.quiet = s.doors.quiet ∧ w.doors.busy = s.doors.busy := by
    rw [ws]; exact ⟨rfl, rfl, rfl⟩
  rw [wp.1, wp.2.1, wp.2.2] at e
  generalize s.doorTransition before mark = t at e grows
  have q : w.QueueOnly t := by
    rw [e]; split
    · exact w.queueOnly_batchCheck
    · exact .refl w
  constructor
  · have ch : t.doors.channels = w.doors.channels := by rw [q]
    have q' : t = { w with doors := { w.doors with queue := t.doors.queue }, links := t.links } := q
    rw [ch]
    refine q'.trans ?_
    generalize t.doors.queue = a
    generalize t.links = b
    exact congrArg (fun u : State => { u with doors := { u.doors with queue := a }, links := b }) ws
  · exact grows
  · intro d
    rw [← wch]
    unfold State.channel; rw [q]
  · rintro ⟨d, hd⟩
    have set : w.links.isSet .doorHeld = true := by
      rw [wv]; exact hc.flag ⟨d, by simp [indices], hd⟩
    have g : w.links.Grows t.links := by
      rw [e]; split
      · exact w.keeps_batchCheck.links
      · exact .refl _
    exact g.flags _ set
  · intro none still
    rw [e, if_neg still, wv, hc.nothing fun d _ => none d]
  · intro off
    have wn : w.doors.notices = s.doors.notices := by rw [ws]
    have tq : t.doors.queue = v.doors.queue := by
      rw [e]; split
      · rw [w.batchCheck_silent (wn.trans off), wv]
      · rw [wv]
    rw [tq]
    exact hc.silent off

end Sys2Proof.Machine
end

