-- ==== Sys2Proof/Laws/Steps.lean ====
section
/-! SUPPORT. What a start-up and a tick can do, and the step in terms of exec. -/

namespace Sys2Proof.Machine

variable {s t : State}

/-- The step with a command waiting. -/
theorem step_cons (s : State) (c : Instr) (rest : List Instr) :
    step { s with pending := c :: rest } = exec c { s with pending := rest } := rfl

/-! ### Start-up -/

/-- The events of start-up, from the records as the reset left them (R2, R71, R83, R130, R176). -/
theorem State.keeps_startUp (s : State) (boards : BitVec 6) (keep : Bool) :
    (s.reinitialised boards (s.clockAfter keep)).Keeps (s.startUp boards keep) := by
  unfold State.startUp
  dsimp only
  refine State.Keeps.trans ?_ (State.keeps_startRound _)
  refine State.Keeps.trans ?_ (State.keeps_startLights _)
  refine State.Keeps.trans ?_ (State.Keeps.forEach (fun z t => t.keeps_modeEvent z) _)
  refine State.Keeps.trans ?_ (State.keeps_raiseIf _ _ _)
  refine State.Keeps.trans ?_ (State.keeps_raiseIf _ _ _)
  exact State.keeps_raiseIf _ _ _

theorem State.lamps_startLights (s : State) : s.startLights.LampFloors := by
  unfold State.startLights
  refine (Handed.keeps_settle _).lamps (State.groupsDo_lawful
    (fun s g x => recomputed s g (if x.config.enabled then x.started else x.disabledNow)) (fun s g => ?_) _ _ ?_)
  · exact recomputed_lawful s g _
  · exact fun g h => absurd (mem_indices g) h

/-- Every lamp group is started or dark: the lamp floors hold after a start-up whatever stood before it. -/
theorem State.lamps_startUp (s : State) (boards : BitVec 6) (keep : Bool) : (s.startUp boards keep).LampFloors := by
  unfold State.startUp
  dsimp only
  exact (State.keeps_startRound _).lamps (State.lamps_startLights _)

theorem Table.fill_ordered {x : Scene} (h : x.Ordered) (g : Fin 24) : ((Table.fill 24 x).get g).Ordered := by
  rw [Table.get_fill]; exact h

/-- The default operating tables are in order (R24, R26, R77, R96). -/
theorem Operating.default_ordered : Operating.default.Ordered := by
  refine ⟨fun p g => ?_, by decide, by decide, by decide⟩
  cases p <;> exact Table.fill_ordered ⟨by decide, by decide, by decide⟩ g

theorem Copy.contents_ordered {c : Copy Operating} (h : c.Ordered) : (c.contents Operating.default).Ordered := by
  cases c with
  | good x => exact h
  | erased => exact Operating.default_ordered
  | spoiled => exact Operating.default_ordered

/-- The records as a reset leaves them are within their bounds. -/
theorem State.reinitialised_bounded (s : State) (boards : BitVec 6) (k : Clock)
    (h : k.weekSecond < Config.weekSeconds ∧ k.tick < Config.ticksPerSecond) : (s.reinitialised boards k).Bounded where
  second    := h.1
  tick      := h.2
  queues    := fun l => by cases l <;> exact Nat.zero_le _
  staging   := Nat.zero_le _
  keys      := List.nodup_nil
  records   := Nat.zero_le _
  forecasts := Nat.zero_le _
  oneEach   := List.nodup_nil

theorem State.reinitialised_ordered (s : State) (boards : BitVec 6) (k : Clock) (h : s.SettingsOrdered) :
    (s.reinitialised boards k).SettingsOrdered := by
  have o := Copy.contents_ordered h.stored
  exact ⟨⟨o.scenes, o.gas12, o.gas23, o.limits⟩, h.stored, fun _ hx => by cases hx⟩

/-- The clock a reset leaves is within its bounds when the clock was (R1, R2). -/
theorem State.clockAfter_bounded (s : State) (keep : Bool)
    (h : s.clock.weekSecond < Config.weekSeconds ∧ s.clock.tick < Config.ticksPerSecond) :
    (s.clockAfter keep).weekSecond < Config.weekSeconds ∧ (s.clockAfter keep).tick < Config.ticksPerSecond := by
  unfold State.clockAfter; split
  · exact h
  · exact ⟨by decide, by decide⟩

/-! ### The tick -/

/-- What every event of a tick keeps: all but the boards, which the scan counts. -/
structure State.TickSound (s t : State) : Prop where
  clock   : t.clock = s.clock
  power   : t.power = s.power
  pending : t.pending = s.pending
  links   : s.links.Grows t.links
  bounded : s.Bounded → t.Bounded
  ordered : s.SettingsOrdered → t.SettingsOrdered
  lamps   : s.LampFloors → t.LampFloors
  caps    : s.LampsCapped → t.LampsCapped

theorem State.TickSound.refl (s : State) : s.TickSound s := ⟨rfl, rfl, rfl, .refl _, id, id, id, id⟩

theorem State.TickSound.trans {u : State} (h : s.TickSound t) (k : t.TickSound u) : s.TickSound u :=
  ⟨k.clock.trans h.clock, k.power.trans h.power, k.pending.trans h.pending, h.links.trans k.links,
   fun x => k.bounded (h.bounded x), fun x => k.ordered (h.ordered x), fun x => k.lamps (h.lamps x),
   fun x => k.caps (h.caps x)⟩

theorem State.Keeps.tickSound (h : s.Keeps t) : s.TickSound t :=
  ⟨h.clock, h.power, h.pending, h.links, h.bounded, h.ordered, h.lamps, h.caps⟩

theorem State.tickSound_afterScan (s : State) (capture : Capture) : s.TickSound (s.afterScan capture) :=
  ⟨rfl, rfl, rfl, .refl _,
   fun b => ⟨b.second, b.tick, b.queues, b.staging, b.keys, b.records, b.forecasts, b.oneEach⟩,
   fun o => o.of_eq rfl rfl, State.lamps_of_eq rfl fun _ => rfl, id⟩

theorem State.tickSound_scan (s : State) (capture : Capture) : s.TickSound (s.scan capture) := by
  rw [State.scan_eq]
  exact (s.tickSound_afterScan capture).trans (State.keeps_deliveries _).tickSound

theorem State.tickSound_event (capture : Capture) (a b : Bool) (s : State) (e : TickEvent) :
    s.TickSound (State.tickEvent capture a b s e) := by
  by_cases h : e = .scan
  · subst h; exact s.tickSound_scan capture
  · exact (s.keeps_tickEvent capture a b e h).tickSound

theorem State.tickSound_events (capture : Capture) (a b : Bool) (es : List TickEvent) (s : State) :
    s.TickSound (es.foldl (State.tickEvent capture a b) s) :=
  foldl_keeps State.TickSound .refl .trans _ (State.tickSound_event capture a b) es s

/-- A tick: what is due is taken, the clock advances, and the tick's events follow (R1). -/
theorem State.tick_spec (s : State) (capture : Capture) (order : List TickEvent) :
    ∃ t u, s.Keeps t ∧ u = { t with clock := s.clock.advance } ∧ u.TickSound (s.tick capture order) := by
  refine ⟨s.takeDue, _, s.keeps_takeDue, rfl, ?_⟩
  have h : s.takeDue.clock = s.clock := s.keeps_takeDue.clock
  unfold State.tick
  dsimp only
  rw [h]
  exact State.tickSound_events _ _ _ _ _

/-- The clock after a tick (R1). -/
theorem Clock.advance_bounded {k : Clock} (h : k.weekSecond < Config.weekSeconds) :
    k.advance.weekSecond < Config.weekSeconds ∧ k.advance.tick < Config.ticksPerSecond := by
  unfold Clock.advance
  split
  · rename_i e; exact ⟨h, e⟩
  · dsimp only
    refine ⟨?_, by decide⟩
    split
    · assumption
    · decide

end Sys2Proof.Machine
end

