-- ==== Sys2Proof/Laws/Wire.lean ====
section
/-! SUPPORT. How many bytes a field, a set, a table and a frame take (R159), and when a frame has its bytes. -/

namespace Sys2Proof.Machine.Wire

@[simp] theorem be_length (n v : Nat) : (be n v).length = n := by simp [be]

@[simp] theorem signed_length (n : Nat) (v : Int) : (signed n v).length = n := by simp [signed]

@[simp] theorem members_length (n : Nat) (l : List Bool) : (members n l).length = n := by simp [members]

@[simp] theorem zoneMode_length (m : ZoneMode) : (zoneMode m).length = 1 := by cases m <;> rfl

/-- A field that may be absent takes its presence byte and at most the field's bytes. -/
theorem opt_length_le {α : Type} (f : α → List Byte) (k : Nat) (h : ∀ a, (f a).length ≤ k) (x : Option α) :
    (opt f x).length ≤ k + 1 := by
  cases x with
  | none => simp [opt]
  | some a => simpa [opt] using h a

/-- A table whose rows take at most `k` bytes each. -/
theorem whole_length_le {n : Nat} {α : Type} (f : α → List Byte) (k : Nat) (h : ∀ a, (f a).length ≤ k)
    (t : Table n α) : (whole f t).length ≤ n * k := by
  have rows : ∀ l : List α, (l.flatMap f).length ≤ l.length * k := by
    intro l
    induction l with
    | nil => simp
    | cons a l ih => have := h a; simp only [List.flatMap_cons, List.length_append, List.length_cons, Nat.succ_mul]; omega
  simpa [whole, t.size] using rows t.rows

/-- R159: a frame is its body and six bytes more. -/
@[simp] theorem frameBytes_length (kind tag : Byte) (b : List Byte) : (frameBytes kind tag b).length = b.length + 6 := by
  simp [frameBytes]; omega

/-- A frame has its bytes exactly when its body is no longer than R159 allows. -/
theorem frame_eq_some {f : Frame} {bs : List Byte} :
    frame f = some bs ↔ (body f.content).length ≤ 248 ∧ bs = frameBytes f.kind f.tag (body f.content) := by
  by_cases h : (body f.content).length ≤ 248 <;> simp [frame, Config.bodyBytes, h, eq_comm]

end Sys2Proof.Machine.Wire
end

