-- ==== Sys2Proof/Tests/Slice0.lean ====
section
/-! SUPPORT. The model's own tests: ill-formed terms refused, small single steps whose expected results come from the
manual's examples and tables or from working a rule by hand, and for each statement with hypotheses a witness, a concrete
state and operands that meet them (a hypothesis that only names a value, such as `x = s.channel d`, is met by that value
and is not repeated). -/

namespace Sys2Proof.Tests
open Sys2Proof Sys2Proof.Machine

set_option Elab.async false

/-! ### Helpers -/

/-- A call from the supervisor, and one from the panel. -/
def sup : Origin := ⟨.supervisor, 7⟩
def pnl : Origin := ⟨.panel, 9⟩

/-- The state a command leaves. -/
def after (c : Instr) (s : State) : State :=
  match exec c s with
  | .next t => t
  | .fault _ | .refused _ => s

/-- The newest answer in a link's outbound queue. -/
def said (l : Link) (s : State) : Option Reply :=
  match (s.links.link l).queue.getLast? with
  | some ⟨_, _, .answer r⟩ => some r
  | _ => none

theorem exec_after {c : Instr} {s : State} (h : ∃ t, exec c s = .next t) : exec c s = .next (after c s) := by
  obtain ⟨t, h⟩ := h
  simp [after, h]

/-- A call is admitted where the part runs, no RESTART is pending and its link may make it. -/
theorem admits {s : State} {k : CallKind} {o : Origin}
    (h : s.power = .running ∧ s.links.restart = none ∧ linkMay k o.link = true) : s.Admits k o := ⟨h.1, h.2.1, h.2.2⟩

/-- The clock RUNNING at a week-second. -/
def atTime (w : Nat) : State := { State.reset with clock := ⟨w, 0, true⟩ }

/-- Some second boundaries owed. -/
def owing (s : State) (x : SecondOf) : State := { s with owed := [x] }

/-- Door 0, configured in zone 0 with curtain 0, in a state. -/
def doorIn (st : DoorState) : Channel := { Channel.initial ⟨true, some 0, some 0, 8, 32, 0b1111⟩ with state := st }
def withDoor (x : Channel) : State := State.reset.setChannel 0 x

/-- Zone 0 configured with four heater stages of step 4 and three fan stages, in a mode. -/
def zoneIn (m : ZoneMode) : Zone := { State.reset.climate.zones.get 0 with
  config := { ZoneConfig.default with heaterStages := 4, fanStages := 3, boost := 2 }, mode := m }
def withZone (m : ZoneMode) : State := State.reset.setZone 0 (zoneIn m)

/-- Group 0 enabled, with a lighting record of the model's making. -/
def groupIn (st : GroupState) (hold : Option Nat) (v : Option GroupOverride) : Group :=
  { Group.dark ⟨true, 0, .dock, true, false, 15, 10⟩ with
    state := st, hold := hold, override := v, desired := 100, floorRequest := 20, levelRequest := 100, granted := 100
    output := 100 }
def withGroup (x : Group) : State := State.reset.setGroup 0 x

/-- A node of address 1, configured as a TEMP node. -/
def nodeIn (st : NodeStatus) (age : Nat) : Node := ⟨⟨true, .temp, .reject⟩, some 117, st, age, 0⟩
def withNode (x : Node) : State := { (State.reset.setNode 0 x) with sensors :=
  { (State.reset.setNode 0 x).sensors with polled := some 0 } }

/-- Board 0 fitted, with levels captured. -/
def withBoard (q : Option Quad) : State := { State.reset with lines := { State.reset.lines with
  boards := State.reset.lines.boards.set 0 ⟨true, q, 0, 0⟩ } }

/-- Override and phase records put in force. -/
def withRecord (p : Phase) (src : Source) (v : Option Override) : State :=
  { atTime 0 with calendar := { State.reset.calendar with record := ⟨p, src, 0, v⟩ } }

/-- One calendar entry, enabled on every day. -/
def daily (start : Nat) (p : Phase) (allowance : Nat) : CalEntry := ⟨true, 0b1111111, start, p, true, allowance⟩
def withEntry (s : State) (e : CalEntry) : State :=
  { s with calendar := { s.calendar with entries := s.calendar.entries.set 0 e } }

/-! ### Ill-formed terms, one for each check of `Instr.wellFormed` -/

theorem test_wellFormed_unknown_kind_known : (Instr.unknownCall sup 0x01).wellFormed = false := by decide
theorem test_wellFormed_unknown_kind_no_call : (Instr.unknownCall sup 0x70).wellFormed = false := by decide
theorem test_wellFormed_unknown_kind : (Instr.unknownCall sup 0x6F).wellFormed = true := by decide
theorem test_wellFormed_tick_twice : (Instr.tick (Table.fill 6 none) [.scan, .scan]).wellFormed = false := by decide
theorem test_wellFormed_phase_items :
    (Instr.phaseWrite sup (some ⟨none, List.replicate 82 (.phaseCap 0), none⟩)).wellFormed = false
    ∧ (Instr.phaseWrite sup (some ⟨none, List.replicate 81 (.phaseCap 0), none⟩)).wellFormed = true := by decide +kernel
theorem test_wellFormed_source_items :
    (Instr.sourceMapWrite sup (some ⟨List.replicate 62 ⟨.gas 0, some 1⟩⟩)).wellFormed = false
    ∧ (Instr.sourceMapWrite sup (some ⟨List.replicate 61 ⟨.gas 0, some 1⟩⟩)).wellFormed = true := by decide +kernel
theorem test_wellFormed_rating_items :
    (Instr.ratingsWrite sup (some ⟨List.replicate 50 (.heater 0 1 0)⟩)).wellFormed = false
    ∧ (Instr.ratingsWrite sup (some ⟨List.replicate 49 (.heater 0 1 0)⟩)).wellFormed = true := by decide +kernel

/-! ### Frames and checks -/

/-- The check value R159 gives for the bytes 0x31 to 0x39. -/
theorem test_crc16 : crc16 [0x31, 0x32, 0x33, 0x34, 0x35, 0x36, 0x37, 0x38, 0x39] = 0x29B1 := by decide +kernel
/-- A CLOCK_READ and a CLOCK_SET frame laid out by R159, each with its check worked out by hand, become the calls; with a byte
of the check changed, a discarded frame. -/
theorem test_frame_received :
    Wire.received .supervisor false [0x7E#8, 0x00#8, 0x02#8, 0x05#8, 0xFA#8, 0x5B#8]
      = some (.clockRead ⟨.supervisor, 5⟩ (some ()))
    ∧ Wire.received .supervisor false [0x7E#8, 0x00#8, 0x02#8, 0x05#8, 0xFA#8, 0x5A#8]
      = some (.frameDiscarded .supervisor .badCheck)
    ∧ Wire.received .panel false
        [0x7E#8, 0x03#8, 0x01#8, 0x05#8, 0x00#8, 0x0E#8, 0x10#8, 0xE7#8, 0xDA#8]
      = some (.clockSet ⟨.panel, 5⟩ (some ⟨3600⟩)) := by decide +kernel
/-- R159, R174, R175: a field that may be absent has its presence byte: the area being written, and the cause of DAMAGED. -/
theorem test_presence_bytes : Wire.saveState none = [0, 0] ∧ Wire.saveState (some .operating) = [1, 1, 1]
    ∧ Wire.areaResult .valid = [1, 0] ∧ Wire.areaResult (.damaged .check) = [2, 1, 1] := by decide +kernel
/-- R17, R105: an extension's end is sent in its three bytes alone; ZONE_READ's answer begins with the mode, its configuration
after it. -/
theorem test_answer_bytes : Wire.answerFields (.extendedEnd 604799) = [0x09, 0x3A, 0x7F]
    ∧ (Wire.zoneReport ⟨{ zoneIn .manual with manualHeat := 2 }, 0, 0, 0, 10, 0⟩).take 3 = [3, 4, 3] := by decide +kernel
/-- R159 with R6, R28 and R84: CAL_WRITE's mode has STAGED 0, PHASE_WRITE's AT_ONCE 0, and ZONE_MODE and its answer MANUAL 2. -/
theorem test_mode_codes :
    (Wire.whole Wire.calWrite [0, 1, 0, 0, 0, 0, 1, 0, 0]).map (·.mode) = some (some .staged)
    ∧ (Wire.whole Wire.phaseWrite [0, 0, 0]).map (·.mode) = some (some .atOnce)
    ∧ Wire.whole Wire.zoneMode [0, 2] = some ⟨0, some .manual⟩
    ∧ Wire.answerFields (.zoneMode .manual) = [2] := by decide +kernel
/-- R127, R159: curtains 0 and 15 granted are bits 0 and 15; a BUDGET_READ answer with nothing absent has 243 body bytes, the
headroom −2 in two's complement among them. -/
theorem test_budget_bytes : let g : GrantReport :=
      ⟨Table.fill 8 4, Table.fill 8 3, ((Table.fill 16 false).set 0 true).set 15 true, Table.fill 24 100, 9, 9, -2, 7, 1⟩
    let b := Wire.body (.answer ⟨.ok, .budget ⟨g, 7, some ⟨7, some 604799⟩,
      some (Table.fill 8 ⟨.auto, some 5, 4, 3, 3⟩), Table.fill 8 (Table.fill 4 (true, 500)), Table.fill 24 (20, 100)⟩⟩)
    (b.drop 17).take 2 = [0x80, 0x01] ∧ (b.drop 51).take 4 = [0xFF, 0xFF, 0xFF, 0xFE] ∧ b.length = 243 := by
  decide +kernel
theorem test_no_word_spells_a_command : decodeTableWord 8 0 = none ∧ State.reset.withFetchWord 8 0 = State.reset :=
  ⟨rfl, rfl⟩

/-! ### The queue of commands and the invariants -/

/-- One waiting KEY_FALL. -/
def waiting : State := { State.reset with pending := [.keyFall] }

theorem witness_StepTakesFrontCommand : waiting.pending = .keyFall :: [] ∧ State.reset.pending = [] := ⟨rfl, rfl⟩

theorem reset_bounded : State.reset.Bounded := by
  constructor <;> first | decide +kernel | (intro l; cases l <;> decide +kernel)
theorem reset_scenes : ∀ p g, (State.reset.sceneOf p g).Ordered := by
  intro p; cases p <;> (unfold Scene.Ordered; decide +kernel)
theorem reset_ordered : State.reset.SettingsOrdered :=
  ⟨⟨reset_scenes, by decide +kernel, by decide +kernel, by decide +kernel⟩, trivial, by
    intro x h
    exact absurd h (by simp [State.reset])⟩
theorem reset_lampFloors : State.reset.LampFloors := by unfold State.LampFloors; decide +kernel
theorem reset_lampsCapped : State.reset.LampsCapped := by unfold State.LampsCapped; decide +kernel

theorem witness_StepKeeps : waiting.Bounded ∧ waiting.SettingsOrdered ∧ waiting.LampFloors ∧ waiting.LampsCapped
    ∧ step waiting = .next (after .keyFall State.reset) :=
  ⟨⟨reset_bounded.1, reset_bounded.2, reset_bounded.3, reset_bounded.4, reset_bounded.5, reset_bounded.6,
    reset_bounded.7, reset_bounded.8⟩, ⟨reset_ordered.1, reset_ordered.2, reset_ordered.3⟩, reset_lampFloors,
    reset_lampsCapped, rfl⟩

/-- FLAGS_CLEAR waiting, CLOCK_UNSET set. -/
def clearing : State := { State.reset with pending := [.flagsClear sup (some ⟨1⟩)] }

theorem witness_FlagsClearOnlyByCallOrReset :
    step clearing = .next (after (.flagsClear sup (some ⟨1⟩)) State.reset) ∧ clearing.links.isSet .clockUnset = true
    ∧ (after (.flagsClear sup (some ⟨1⟩)) State.reset).links.isSet .clockUnset = false := ⟨rfl, by decide +kernel⟩

/-! ### Every call -/

/-- A RESTART accepted, its answer not queued, the clock running. -/
def restarting : State := { atTime 500 with links := { State.reset.links with
  restart := some ⟨true, .supervisor, true⟩ } }
def silent : State := { State.reset with power := .unsupplied }

theorem witness_PanelCallsOutsideItsSetAnswerLevel :
    callOf (.clockSet pnl none) = some (.clockSet, pnl, false) ∧ pnl.link = .panel
    ∧ CallKind.clockSet ∉ [.phaseExtend, .groupOverride, .groupRelease, .phaseWrite, .sceneWrite, .phaseRead, .zoneRead,
        .groupRead, .doorRead, .shiftRead, .ident]
    ∧ State.reset.power = .running ∧ State.reset.links.restart = none := by decide
theorem witness_MalformedBodiesAnswerRange :
    callOf (.clockSet sup none) = some (.clockSet, sup, false) ∧ State.reset.Admits .clockSet sup := ⟨rfl, rfl, rfl, rfl⟩
theorem witness_CallsAfterRestartAreDiscarded :
    callOf (.clockRead pnl (some ())) = some (.clockRead, pnl, true) ∧ restarting.power = .running
    ∧ restarting.links.restart ≠ none := by decide
theorem witness_NothingHappensWithoutPower : silent.power ≠ .running ∧ (∀ b, Instr.keyFall ≠ .powerOn b)
    ∧ Instr.keyFall ≠ .lossOfPower ∧ Instr.keyFall ≠ .resetPinLow := by
  refine ⟨by decide, fun b => by simp, by decide, by decide⟩
theorem witness_LinksDoNotTouchEachOther :
    callOf (.clockRead sup (some ())) = some (.clockRead, sup, true) ∧ Link.panel ≠ sup.link
    ∧ exec (.clockRead sup (some ())) State.reset = .next (after (.clockRead sup (some ())) State.reset)
    ∧ exec (.linkHold .panel) State.reset = .next (after (.linkHold .panel) State.reset) :=
  ⟨rfl, by decide, rfl, rfl⟩
theorem witness_UnknownCallsAnswerUnknown :
    (∀ k, kindCode k ≠ 0x6F) ∧ (∀ k, kindCode k ≠ 0x0A) ∧ 1 ≤ (0x6F : Byte).toNat ∧ (0x6F : Byte).toNat ≤ 0x6F :=
  ⟨fun k => by cases k <;> decide, fun k => by cases k <;> decide, by decide, by decide⟩

theorem test_unknown_call : said .panel (after (.unknownCall pnl 0x0A) State.reset) = some ⟨.unknown, .bare⟩ := by
  decide +kernel
theorem test_panel_level : said .panel (after (.clockRead pnl (some ())) State.reset) = some ⟨.level, .bare⟩ := by
  decide +kernel

/-! ### Links -/

/-- The supervisor's receiver inside a frame; the panel's hunting, one frame being sent. -/
def inFrame : State := after (.frameBegins .supervisor) State.reset

theorem witness_HoldReleaseAndStartBytes : (State.reset.links.link .panel).receiver = .hunting
    ∧ (inFrame.links.link .supervisor).receiver = .receiving ∧ inFrame.power = .running := by decide +kernel
theorem witness_FramesDiscardedAndSent : (State.reset.links.link .supervisor).sending = true
    ∧ (State.reset.links.link .supervisor).queue = [clockUnsetNotice]
    ∧ (State.reset.links.link .panel).sending = false := by decide +kernel

theorem test_hold_then_sent_stops :
    (after (.frameSent .supervisor) (after (.linkHold .supervisor) State.reset)).links.supervisor
      = ⟨.hunting, true, false, []⟩ := by decide +kernel
theorem test_release_inside_frame_is_data :
    (after (.linkRelease .supervisor) inFrame).links.supervisor.receiver = .receiving := by decide +kernel
theorem test_late_start_byte :
    (after (.frameDiscarded .supervisor (.lateByte 0x7E)) inFrame).links.supervisor.receiver = .receiving
    ∧ (after (.frameDiscarded .supervisor .badCheck) inFrame).links.supervisor.receiver = .hunting := by decide +kernel
theorem test_link_release :
    (after (.linkRelease .panel) (after (.linkHold .panel) State.reset)).links.panel.held = false := by decide +kernel

/-! ### Shed Clock -/

theorem witness_ClockCalls : State.reset.Admits .clockRead sup ∧ State.reset.Admits .clockSet sup
    ∧ 604800 ≤ (604800 : Tri).toNat ∧ (604799 : Tri).toNat < 604800
    ∧ (atTime 0).Admits .clockSet sup ∧ (atTime 0).clock.running = true
    ∧ (59 : Tri).toNat / 60 = (atTime 0).clock.weekSecond / 60 :=
  ⟨⟨rfl, rfl, rfl⟩, ⟨rfl, rfl, rfl⟩, by decide, by decide, ⟨rfl, rfl, rfl⟩, by decide⟩
/-- The clock UNSET; RUNNING with the minute changed; an override active; an entry matching; none matching. -/
theorem witness_SetEventFollowsClockSet :
    State.reset.clock.running = false ∧ State.reset.calendar.record.overridden = false
    ∧ (atTime 0).clock.running = true ∧ (60 : Tri).toNat / 60 ≠ (atTime 0).clock.weekSecond / 60
    ∧ (withRecord .work .forced (some ⟨none⟩)).calendar.record.overridden = true
    ∧ winner (withEntry State.reset (daily 360 .work 0)).calendar.entries ((21600 : Tri).toNat / 60)
        = some (daily 360 .work 0)
    ∧ winner State.reset.calendar.entries 0 = none
    ∧ ¬ (State.reset.phase = .setback ∧ State.reset.calendar.record.source = .calendar
        ∧ leadHolds State.reset.calendar.entries 0 0 32 = true) := by decide +kernel
theorem witness_TickAdvancesClockAndScans : State.reset.power = .running ∧ State.reset.owed = []
    ∧ (∀ d, State.reset.doorDue d = none ∧ State.reset.trailerDue d = none) ∧ State.reset.clock.tick + 1 < 16 := by
  decide +kernel
/-- The last tick of the week, which brings a second and a minute boundary. -/
def weekEnding : State := { State.reset with clock := ⟨604799, 15, true⟩ }
theorem witness_TickBringsBoundaries : weekEnding.power = .running ∧ weekEnding.owed = []
    ∧ (∀ d, weekEnding.doorDue d = none ∧ weekEnding.trailerDue d = none) ∧ 16 ≤ weekEnding.clock.tick + 1
    ∧ ¬ weekEnding.clock.weekSecond + 1 < 604800 := by decide +kernel
/-- A door in each state, WORK's limit being 20 minutes: an OPEN one a second short of it and at it, a HELD one, one without a
zone. -/
theorem witness_DoorsTakeSeconds : ((withDoor (doorIn .unused)).channel 0).state = .unused
    ∧ ((withDoor (doorIn .closed)).channel 0).state = .closed ∧ ((withDoor (doorIn .held)).channel 0).state = .held
    ∧ ((withDoor { doorIn .opened with interval := 1198 }).channel 0).state = .opened
    ∧ (State.reset.paramsOf State.reset.phase).longOpen = 20
    ∧ min 65535 (1198 + 1) < 60 * 20 ∧ 60 * 20 ≤ min 65535 (1199 + 1)
    ∧ (doorIn .held).config.zone = some 0 ∧ (Channel.initial .default).config.zone = none := by decide +kernel
/-- Each record with its boundary counted, and with its boundary bringing its row. -/
theorem witness_RecordsTakeSeconds :
    (⟨⟨true, 0, 15⟩, .runOn, some 1, false⟩ : Curtain).state = .runOn
    ∧ (⟨⟨true, 0, 15⟩, .runOn, some 2, false⟩ : Curtain).remaining = some 2
    ∧ (State.reset.doors.curtains.get 0).state ≠ .runOn
    ∧ State.reset.Bounded ∧ (∀ f ∈ State.reset.doors.forecasts, f.door ≠ 0)
    ∧ ((withNode (nodeIn .fresh 28)).sensors.nodes.get 0).config.configured = true
    ∧ (withNode (nodeIn .fresh 28)).sensors.stale = 30 ∧ (withNode (nodeIn .fresh 28)).sensors.degrade = 120
    ∧ (State.reset.sensors.nodes.get 0).config.configured = false
    ∧ State.reset.calendar.record.override = none ∧ State.reset.budget.supCap = none
    ∧ (withRecord .work .forced (some ⟨some 2⟩)).calendar.record.override.bind Override.remaining = some 2
    ∧ (State.reset.budget.zones.get 0).heat ≤ 4 ∧ (State.reset.budget.zones.get 0).heat = 0
    ∧ State.reset.climate.timer < State.reset.climate.setting
    ∧ (∀ g, (State.reset.lighting.groups.get g).hold = none ∧ (State.reset.lighting.groups.get g).override = none) := by
  refine ⟨rfl, rfl, by decide +kernel, reset_bounded, fun f h => absurd h (by simp [State.reset]), ?_⟩
  decide +kernel
/-- The clock RUNNING and UNSET, an override in force, an entry matching and none. -/
theorem witness_MinuteBoundaries : (atTime 0).clock.running = true ∧ State.reset.clock.running = false
    ∧ (withRecord .work .forced (some ⟨none⟩)).calendar.record.source = .forced
    ∧ (withRecord .work .calendar none).calendar.record.source ≠ .forced
    ∧ (withRecord .work .calendar none).calendar.record.source ≠ .extended
    ∧ winner (withEntry (withRecord .work .calendar none) (daily 0 .work 0)).calendar.entries (0 / 60)
        = some (daily 0 .work 0)
    ∧ winner (withRecord .work .calendar none).calendar.entries (0 / 60) = none := by decide +kernel
/-- A configured channel and one that is not; an INPUT line of a present board, one of an absent board, an OUTPUT line. -/
theorem witness_ScanDebounces : ((withDoor (doorIn .closed)).channel 0).config.configured = true
    ∧ ((withDoor (doorIn .closed)).channel 1).config.configured = false
    ∧ ((withBoard (some 1)).lines.boards.get 0).present = true ∧ ((withBoard (some 1)).lines.boards.get 0).captured = some 1
    ∧ ((withBoard (some 1)).lines.lines.get 0).config.mode = .input ∧ boardOf 0 = 0
    ∧ ((withBoard none).lines.boards.get 0).captured = none ∧ (State.reset.lines.boards.get 0).present = false := by
  decide +kernel
/-- R147, R149: an OUTPUT line of a present board is driven to its latch, after its invert; one of an absent board to nothing. -/
theorem test_scan_drives :
    let line := fun inv => (⟨⟨.output, true, inv, .spareOut⟩, true, none⟩ : Line)
    let t := (((withBoard none).setLine 0 (line false)).setLine 1 (line true)).setLine 32 (line false)
      |>.scan (Table.fill 6 none)
    ((t.lines.lines.get 0).driven, (t.lines.lines.get 1).driven, (t.lines.lines.get 32).driven)
      = (some true, some false, none) := by decide +kernel

/-- R1: the last tick of the week is followed by Monday 00:00:00. -/
theorem test_tick_wraps_the_week :
    (after (.tick (Table.fill 6 none) []) { State.reset with clock := ⟨604799, 15, true⟩ }).clock = ⟨0, 0, true⟩ := by
  decide +kernel
/-- R4: week-second 90,061 is TUE 01:01. -/
theorem test_clock_read :
    said .supervisor (after (.clockRead sup (some ())) (atTime 90061)) = some ⟨.ok, .clock 90061 0 1 61 true⟩ := by
  decide +kernel
theorem test_clock_set_range :
    said .supervisor (after (.clockSet sup (some ⟨604800⟩)) State.reset) = some ⟨.range, .bare⟩ := by decide +kernel
/-- R13: setting the clock for the first time makes a transition, from NO_CLOCK to CALENDAR. -/
theorem test_clock_first_set :
    (after (.clockSet sup (some ⟨3600⟩)) State.reset).calendar.record = ⟨.work, .calendar, 3600, none⟩ := by
  decide +kernel

/-! ### Shift Calendar -/

/-- A nightly SETBACK at 22:00 and a WORK entry at 06:00 with an allowance of 30 minutes. -/
def shifts : Table 24 CalEntry := ((Table.fill 24 CalEntry.default).set 0 (daily 360 .work 30)).set 1 (daily 1320 .setback 0)

theorem no_winner (m : Nat) : winner (Table.fill 24 CalEntry.default) m = none := rfl

/-- The match at the minute itself, and one found three minutes back past the start of the week. -/
theorem witness_CalendarSearches_lookup : winner shifts ((360 + 10080 - 0) % 10080) = some (daily 360 .work 30)
    ∧ (∀ j, j < 3 → winner ((Table.fill 24 CalEntry.default).set 5 (daily 1438 .setback 0)) ((1 + 10080 - j) % 10080) = none)
    ∧ winner ((Table.fill 24 CalEntry.default).set 5 (daily 1438 .setback 0)) ((1 + 10080 - 3) % 10080)
        = some (daily 1438 .setback 0)
    ∧ ∀ m, m < 10080 → winner (Table.fill 24 CalEntry.default) m = none := by
  refine ⟨by decide +kernel, by decide +kernel, by decide +kernel, fun m _ => rfl⟩
/-- Entries 0 and 2 start in the same minute: 0 is the lowest. No entry at minute 0. -/
theorem witness_CalendarSearches_winner : ((shifts.set 2 (daily 360 .breakTime 0)).get 0).enabled = true
    ∧ ((shifts.set 2 (daily 360 .breakTime 0)).get 0).days.getLsbD (360 / 1440) = true
    ∧ ((shifts.set 2 (daily 360 .breakTime 0)).get 0).start = 360 % 1440
    ∧ (∀ j : Fin 24, ¬ j < 0)
    ∧ ∀ j : Fin 24, ¬ ((shifts.get j).enabled = true ∧ (shifts.get j).days.getLsbD (0 / 1440) = true
        ∧ (shifts.get j).start = 0 % 1440) := by decide +kernel
/-- The target at both ends of the search, 1 and 120 minutes ahead; no target at all. -/
theorem witness_CalendarSearches_lead :
    winner shifts ((359 + 1) % 10080) = some (daily 360 .work 30)
    ∧ winner shifts ((240 + 120) % 10080) = some (daily 360 .work 30)
    ∧ (∀ j, j < 120 → 1 ≤ j → winner shifts ((240 + j) % 10080) = none)
    ∧ (∀ j, j ≤ 120 → 1 ≤ j → winner shifts ((0 + j) % 10080) = none)
    ∧ (daily 360 .work 30).phase = .work ∧ (daily 360 .work 30).allowance ≠ 0 := by decide +kernel

/-- R22: a deficit of 40 with the default lead rate 32 asks for 20 minutes. -/
theorem test_required_lead : requiredLead 30 40 32 = 20 ∧ requiredLead 10 40 32 = 10 ∧ requiredLead 30 0 32 = 0 := by decide
theorem test_lead_at_its_minute : leadHolds shifts 340 40 32 = true ∧ leadHolds shifts 339 40 32 = false := by
  decide +kernel

/-- A staging list with an edit of each kind. -/
def staged : Calendar := { State.reset.calendar with staging :=
  [⟨.entry 0 (daily 360 .work 30), .supervisor⟩, ⟨.params .work { PhaseFields.empty with vent := some 2 }, .supervisor⟩,
   ⟨.scene .work 0 80 50 (some 30), .supervisor⟩, ⟨.scene .work 1 80 5 none, .panel⟩] }
/-- A staging list of 16 edits. -/
def stagedFull : Calendar := { State.reset.calendar with
  staging := ((indices 24).take 16).map (fun i => ⟨.entry i .default, .supervisor⟩) }

theorem witness_StagingList : (staged.staging.map fun x => x.edit.key).Nodup
    ∧ staged.isStaged (.entry 5) = false ∧ staged.isStaged (.params .setback) = false
    ∧ staged.isStaged (.scene .work 2) = false ∧ staged.staging.length < 16
    ∧ stagedFull.isStaged (.entry 20) = false ∧ 16 ≤ stagedFull.staging.length
    ∧ stagedFull.isStaged (.entry 15) = true ∧ staged.isStaged (.scene .work 1) = true
    ∧ staged.staging[3]? = some ⟨.scene .work 1 80 5 none, .panel⟩ := by decide +kernel

/-- R38: a vacant level below the kept floor is raised to it when the edit is applied. -/
theorem test_staged_panel_scene :
    (staged.applyStaging fun _ v => v).sceneAt .work 1 = ⟨80, 20, 20⟩
    ∧ (staged.applyStaging fun _ v => v).sceneAt .work 0 = ⟨80, 50, 30⟩ := by decide +kernel

theorem witness_CalendarCalls : State.reset.Admits .calWrite sup ∧ (23 : Byte).toNat = (23 : Fin 24).val
    ∧ (1439 : Half).toNat ≤ 1439 ∧ 23 < (24 : Byte).toNat ∧ 1439 < (1440 : Half).toNat ∧ (none : Named WriteMode) = none
    ∧ State.reset.Admits .calRead sup ∧ State.reset.Admits .stagedRead sup ∧ State.reset.Admits .stagedDiscard sup :=
  ⟨⟨rfl, rfl, rfl⟩, by decide, by decide, by decide, by decide, rfl, ⟨rfl, rfl, rfl⟩, ⟨rfl, rfl, rfl⟩, ⟨rfl, rfl, rfl⟩⟩

/-- R6: an allowance above 120 is clamped. -/
theorem test_cal_write_clamps :
    (after (.calWrite sup (some ⟨3, true, 0b11111, 360, some .work, true, 121, some .atOnce⟩)) State.reset).calendar.entries.get 3
      = ⟨true, 0b11111, 360, .work, true, 120⟩
    ∧ said .supervisor (after (.calWrite sup (some ⟨24, true, 0, 0, some .work, true, 0, some .atOnce⟩)) State.reset)
      = some ⟨.range, .bare⟩ := by decide +kernel
theorem test_cal_read_staged :
    said .supervisor (after (.calRead sup (some ⟨0⟩)) { State.reset with calendar := staged })
      = some ⟨.ok, .calEntry 0 .default true⟩ := by decide +kernel
theorem test_staged_read : said .supervisor (after (.stagedRead sup (some ⟨3⟩)) { State.reset with calendar := staged })
    = some ⟨.ok, .staged 4 [(3, ⟨.scene .work 1 80 5 none, .panel⟩)]⟩ := by decide +kernel
theorem test_staged_discard :
    said .supervisor (after (.stagedDiscard sup (some ())) { State.reset with calendar := staged })
      = some ⟨.ok, .discarded 4⟩ := by decide +kernel

theorem witness_SettingsAndTableReads : State.reset.Admits .calSettings sup ∧ State.reset.Admits .phaseRead pnl
    ∧ State.reset.Admits .phaseTableRead sup ∧ State.reset.Admits .sceneRead sup ∧ (23 : Byte).toNat = (23 : Fin 24).val
    ∧ 23 < (24 : Byte).toNat :=
  ⟨⟨rfl, rfl, rfl⟩, ⟨rfl, rfl, rfl⟩, ⟨rfl, rfl, rfl⟩, ⟨rfl, rfl, rfl⟩, by decide, by decide⟩

theorem test_cal_settings_keeps_the_absent :
    said .supervisor (after (.calSettings sup (some ⟨some (some .setback), none⟩)) State.reset)
      = some ⟨.ok, .calSettings .setback 32⟩ := by decide +kernel
/-- R10: while the clock is UNSET the scheduled phase reported is the no-clock phase. -/
theorem test_phase_read : said .panel (after (.phaseRead pnl (some ())) State.reset)
    = some ⟨.ok, .phase ⟨.work, .noClock, 0, none, .work⟩ false⟩ := by decide +kernel
/-- R24: the default record of CHANGEOVER. -/
theorem test_phase_table_read : said .supervisor (after (.phaseTableRead sup (some ⟨some .changeover⟩)) State.reset)
    = some ⟨.ok, .phaseTable ⟨Table.fill 8 116, 1, 2, 30, 65535⟩ false⟩ := by decide +kernel
/-- R26: the default scene of CLEANDOWN. -/
theorem test_scene_read : said .supervisor (after (.sceneRead sup (some ⟨some .cleandown, 23⟩)) State.reset)
    = some ⟨.ok, .sceneRead ⟨100, 100, 30⟩ false⟩ := by decide +kernel

/-- A forced WORK, and an extended WORK with an hour left, the clock running. -/
def forced : State := withRecord .work .forced (some ⟨none⟩)
def extended : State := withRecord .work .extended (some ⟨some 3600⟩)
def lastSecond : State := owing (withRecord .breakTime .forced (some ⟨some 1⟩)) .override

theorem witness_PhaseForceAndExtend : forced.Admits .phaseForce sup ∧ extended.Admits .phaseExtend pnl
    ∧ forced.calendar.record.source = .forced ∧ forced.calendar.record.phase = .work :=
  ⟨⟨rfl, rfl, rfl⟩, ⟨rfl, rfl, rfl⟩, rfl, rfl⟩
theorem witness_OverrideEnds : forced.Admits .phaseRelease sup ∧ forced.calendar.record.source = .forced
    ∧ State.reset.Admits .phaseRelease sup ∧ State.reset.calendar.record.source ≠ .forced
    ∧ State.reset.calendar.record.source ≠ .extended ∧ lastSecond.power = .running ∧ .override ∈ lastSecond.owed
    ∧ lastSecond.calendar.record.override = some ⟨some 1⟩ :=
  ⟨⟨rfl, rfl, rfl⟩, rfl, ⟨rfl, rfl, rfl⟩, by decide, by decide, rfl, by decide, rfl⟩

/-- R16: minutes above 1440 are taken as 1440. -/
theorem test_phase_force :
    (after (.phaseForce sup (some ⟨some .cleandown, 1441⟩)) (atTime 100)).calendar.record
      = ⟨.cleandown, .forced, 100, some ⟨some 86400⟩⟩ := by decide +kernel
/-- R17: an extension never reaches further than four hours. -/
theorem test_phase_extend : (after (.phaseExtend pnl (some ⟨120⟩)) (withRecord .work .extended (some ⟨some 14000⟩))).calendar.record
      = ⟨.work, .extended, 0, some ⟨some 14400⟩⟩
    ∧ said .panel (after (.phaseExtend pnl (some ⟨60⟩)) forced) = some ⟨.overridden, .bare⟩ := by decide +kernel
/-- R10, R181: a shift-start transition offers PHASE to both queues, and SHIFT_SUMMARY last to the supervisor. -/
theorem test_transition_notices :
    let t := (atTime 0).transition .cleandown .calendar none true
    t.links.panel.queue = [⟨0xF1, 0, .notice (.phase ⟨.cleandown, .calendar, 0, none, .work⟩)⟩]
    ∧ (t.links.supervisor.queue.map Frame.kind).getLast? = some 0xF3 := by decide +kernel
/-- R18: a release with the clock RUNNING enters the scheduled phase, here the no-clock phase (R11), with source CALENDAR. -/
theorem test_phase_release : (after (.phaseRelease sup (some ())) forced).calendar.record = ⟨.work, .calendar, 0, none⟩ := by
  decide +kernel
theorem test_override_time_end :
    (after .overrideTimeEnd lastSecond).calendar.record = ⟨.work, .calendar, 0, none⟩
    ∧ (after .overrideTimeEnd forced) = forced := by decide +kernel

/-! ### Phase Tables -/

theorem witness_PhaseWriteCall : State.reset.Admits .phaseWrite sup ∧ State.reset.Admits .phaseWrite pnl
    ∧ [PhaseItem.setpoint 7 200] ≠ [] ∧ (PhaseFields.ofItems [PhaseItem.setpoint 7 200] .empty).isSome = true
    ∧ PhaseItem.setpoint 8 100 ∈ [PhaseItem.setpoint 8 100] ∧ 7 < (8 : Byte).toNat
    ∧ (PhaseFields.ofItems [.ventMinimum 3, .longOpen 5] .empty).isSome = true :=
  ⟨⟨rfl, rfl, rfl⟩, ⟨rfl, rfl, rfl⟩, by decide, by decide +kernel, by decide, by decide, by decide +kernel⟩
/-- R28: a field named twice has its later value; a zone above 7 and a field that does not exist name nothing. -/
theorem test_phase_items :
    ((PhaseFields.ofItems [.setpoint 3 5, .setpoint 3 7] .empty).map fun f => f.setpoints.get 3) = some (some 7)
    ∧ PhaseFields.ofItems [.setpoint 8 100] .empty = none ∧ PhaseFields.ofItems [.noSuchField] .empty = none := by
  decide +kernel
theorem witness_SceneWriteCall : State.reset.Admits .sceneWrite sup ∧ State.reset.Admits .sceneWrite pnl
    ∧ (23 : Byte).toNat = (23 : Fin 24).val ∧ 23 < (24 : Byte).toNat ∧ (100 : Nat) ≤ 100 :=
  ⟨⟨rfl, rfl, rfl⟩, ⟨rfl, rfl, rfl⟩, by decide, by decide, le_refl _⟩
/-- A door that has stood open for 1,199 seconds; the phase in force is WORK. -/
theorem witness_TableChangeEvents :
    Phase.setback ≠ State.reset.phase ∧ ({ PhaseFields.empty with longOpen := some 1 } : PhaseFields).longOpen ≠ none
    ∧ (((withDoor { doorIn .opened with interval := 1199 }).fieldsChanged .work
        { PhaseFields.empty with longOpen := some 1 }).channel 0).state = .opened
    ∧ ({ PhaseFields.empty with cap := some 0 } : PhaseFields).cap ≠ none
    ∧ ((withDoor { doorIn .opened with interval := 1200 }).channel 0).state = .opened
    ∧ 60 * (State.reset.paramsOf .work).longOpen ≤ 1200 ∧ (State.reset.paramsOf .work).longOpen ≠ 0
    ∧ (State.reset.channel 0).state ≠ .opened := by decide +kernel

/-- R28: a setpoint outside its zone's limits 60..150 is moved to the nearer one; R37: the panel's into its band 108..124, its
other items set aside. -/
theorem test_phase_write :
    ((after (.phaseWrite sup (some ⟨some .work, [.setpoint 0 200, .ventMinimum 9], some .atOnce⟩)) State.reset).paramsOf .work)
      = ⟨(Table.fill 8 116).set 0 150, 3, 2, 20, 65535⟩
    ∧ (said .panel (after (.phaseWrite pnl (some ⟨some .work, [.setpoint 0 200, .ventMinimum 2], some .atOnce⟩))
        State.reset)).map Reply.status = some .partially
    ∧ ((after (.phaseWrite pnl (some ⟨some .work, [.setpoint 0 200, .ventMinimum 2], some .atOnce⟩)) State.reset).paramsOf .work)
      = ⟨(Table.fill 8 116).set 0 124, 1, 2, 20, 65535⟩ := by decide +kernel
/-- R27's two examples, and R38's order against the floor of 20 that WORK keeps. -/
theorem test_scene_write :
    (after (.sceneWrite sup (some ⟨some .work, 0, 60, 80, 70, some .atOnce⟩)) State.reset).sceneOf .work 0 = ⟨60, 60, 60⟩
    ∧ (after (.sceneWrite sup (some ⟨some .work, 0, 120, 40, 50, some .atOnce⟩)) State.reset).sceneOf .work 0 = ⟨100, 40, 40⟩
    ∧ (after (.sceneWrite pnl (some ⟨some .work, 0, 60, 10, 0, some .atOnce⟩)) State.reset).sceneOf .work 0 = ⟨60, 20, 20⟩ := by
  decide +kernel

/-! ### Door Unit -/

/-- Door 0 and its curtain 0, whose zone 0 is in AUTO. -/
def dock (x : Channel) (c : Curtain) : State := ((withZone .auto).setChannel 0 x).setCurtain 0 c
def curtainIn (st : CurtainState) (n : Option Nat) : Curtain := ⟨⟨true, 0, 15⟩, st, n, false⟩
/-- A door whose contact is about to settle at a level. -/
def settling (st : DoorState) (level : Bool) : Channel := { doorIn st with doorPending := some ⟨level, 0⟩ }

theorem witness_DoorConfigAndRead : State.reset.Admits .doorConfig sup ∧ State.reset.Admits .doorRead pnl
    ∧ (31 : Byte).toNat = (31 : Fin 32).val ∧ ((some 7 : Option Byte).map BitVec.toNat) = (some (7 : Fin 8)).map Fin.val
    ∧ ((some 15 : Option Byte).map BitVec.toNat) = (some (15 : Fin 16)).map Fin.val
    ∧ 31 < (32 : Byte).toNat ∧ 7 < (8 : Byte).toNat ∧ 15 < (16 : Byte).toNat :=
  ⟨⟨rfl, rfl, rfl⟩, ⟨rfl, rfl, rfl⟩, by decide, by decide, by decide, by decide, by decide, by decide⟩
theorem witness_CurtainConfigCall : State.reset.Admits .curtainConfig sup ∧ (15 : Byte).toNat = (15 : Fin 16).val
    ∧ ((none : Option Byte).map BitVec.toNat) = (none : Option (Fin 8)).map Fin.val ∧ 15 < (16 : Byte).toNat
    ∧ 7 < (8 : Byte).toNat := ⟨⟨rfl, rfl, rfl⟩, by decide, rfl, by decide, by decide⟩
/-- Each cell of R52's table: wanted; not wanted with the zone OFF; not wanted with the zone in AUTO, with a run-on and without
one. Then what the allocator tells apart, and RUN_ON_END's last second, one before it and none owed. -/
theorem witness_CurtainsFollowTheirDoors :
    (∀ x ∈ [curtainIn .idle none, curtainIn .demanded none, curtainIn .runOn (some 1)],
      (dock (doorIn .opened) x).curtainWanted 0 = true ∧ (dock (doorIn .held) x).curtainWanted 0 = true
      ∧ (State.reset.setCurtain 0 x).curtainWanted 0 = false ∧ (State.reset.setCurtain 0 x).zoneMode 0 = .off
      ∧ (dock (doorIn .closed) x).curtainWanted 0 = false ∧ (dock (doorIn .closed) x).zoneMode 0 ≠ .off
      ∧ x.config.runOn ≠ 0)
    ∧ (dock (doorIn .closed) ⟨⟨true, 0, 0⟩, .demanded, none, true⟩).curtainWanted 0 = false
    ∧ (curtainIn .demanded none).granted = false
    ∧ (State.reset.budget.ratings.curtains.get 0 : Int) ≤ (State.reset.budget.capInForce : Int) - State.reset.budget.total
    ∧ SecondOf.curtain 0 ∈ (owing (dock (doorIn .closed) (curtainIn .runOn (some 1))) (.curtain 0)).owed
    ∧ (owing (dock (doorIn .closed) (curtainIn .runOn (some 2))) (.curtain 0)).power = .running
    ∧ SecondOf.curtain 0 ∉ State.reset.owed := by decide +kernel
/-- R52 to R54: reopened in RUN_ON a curtain keeps its grant, in DEMANDED again; its run-on's last second makes it IDLE and its
rating leaves the total. -/
theorem test_run_on : let x : Curtain := ⟨⟨true, 0, 15⟩, .runOn, some 1, true⟩
    ((dock (doorIn .opened) x).reevaluate 0).doors.curtains.get 0 = ⟨⟨true, 0, 15⟩, .demanded, none, true⟩
    ∧ let t := after (.runOnEnd 0) (owing { dock (doorIn .closed) x with budget := { State.reset.budget with
        total := 10, ratings := { Ratings.default with curtains := Table.fill 16 4 } } } (.curtain 0))
      t.doors.curtains.get 0 = ⟨⟨true, 0, 15⟩, .idle, none, false⟩ ∧ t.budget.total = 6 := by decide +kernel

/-- Door 0 with a forecast in its last second. -/
def forecastEnding : State :=
  owing { State.reset with doors := { State.reset.doors with forecasts := [⟨0, 1⟩] } } (.forecast 0)
theorem witness_ForecastsTakenAndEnded : State.reset.Admits .arrivalForecast sup ∧ (31 : Byte).toNat = (31 : Fin 32).val
    ∧ 31 < (32 : Byte).toNat ∧ forecastEnding.Bounded ∧ forecastEnding.power = .running
    ∧ .forecast 0 ∈ forecastEnding.owed ∧ ⟨0, 1⟩ ∈ forecastEnding.doors.forecasts := by
  refine ⟨⟨rfl, rfl, rfl⟩, by decide, by decide, ?_, rfl, by decide, by decide⟩
  exact ⟨reset_bounded.1, reset_bounded.2, reset_bounded.3, reset_bounded.4, reset_bounded.5, reset_bounded.6,
    by decide, by decide⟩
theorem witness_DoorQueueCalls : State.reset.Admits .doorqThresholds sup ∧ State.reset.Admits .doorqNotices sup
    ∧ State.reset.Admits .doorqRead sup ∧ State.reset.Admits .doorqFlush sup :=
  ⟨⟨rfl, rfl, rfl⟩, ⟨rfl, rfl, rfl⟩, ⟨rfl, rfl, rfl⟩, ⟨rfl, rfl, rfl⟩⟩
/-- Some records waiting, the notices off. -/
def records (n : Nat) : State := { State.reset with doors := { State.reset.doors with
  notices := false, queue := (List.range n).map (fun i => ⟨0, .closed, i, .work, none⟩) } }
/-- The notices off; and on, with the threshold of WORK in force; a RESTART accepted; a phase of the quiet class. -/
theorem witness_BatchCheckEmptiesTheQueue : (withRecord .cleandown .calendar none).phase = .cleandown ∧ State.reset.phase = .work
    ∧
    (after (.doorqNotices sup (some ⟨false⟩)) State.reset).doors.notices = false ∧ State.reset.doors.notices = true
    ∧ State.reset.links.restart = none ∧ State.reset.links.supervisor.queue.length ≤ 8 ∧ State.reset.threshold = 16
    ∧ restarting.links.restart ≠ none := by decide +kernel
/-- A transition from WORK to SETBACK leaves the busy class, the quiet threshold of 4 below the busy one of 16; one to
CHANGEOVER does not. A door at WORK's 20 minutes and one short of them. -/
theorem witness_TransitionLeaves : State.reset.phase = .work ∧ busyClass .work = true ∧ busyClass .setback = false
    ∧ busyClass .changeover = true ∧ State.reset.doors.quiet < State.reset.doors.busy ∧ (records 10).doors.notices = false
    ∧ ((withDoor { doorIn .opened with interval := 1200 }).channel 0).state = .opened
    ∧ 60 * (State.reset.paramsOf .work).longOpen = 1200
    ∧ (State.reset.lines.lines.get 191).config.mode = .input := by decide +kernel
/-- R60: ten records that waited in WORK leave as two batches of the quiet threshold 4; R47: with the notices off the door the
comparison makes HELD has its record last in the queue; R48: a shift-start match zeroes the tallies. -/
theorem test_transition_doors :
    let on : State := { records 10 with doors := { (records 10).doors with notices := true } }
    (on.transition .setback .calendar none false).doors.queue.length = 2
    ∧ (on.transition .changeover .calendar none false).doors.queue.length = 10
    ∧ let t := ((records 10).setChannel 0 { doorIn .opened with interval := 1200, openings := 3 }).transition .work .calendar
        none true
      ((t.channel 0).state, (t.channel 0).openings, t.doors.queue.length) = (.held, 0, 11)
      ∧ t.doors.queue.getLast? = some ⟨0, .held, 0, .work, none⟩ ∧ t.links.isSet .doorHeld = true := by decide +kernel
/-- The door event queue with room for one more record, and full; the notices off. -/
theorem witness_RecordsAreQueued : (records 63).doors.queue.length < 64 ∧ 64 ≤ (records 64).doors.queue.length
    ∧ (records 64).doors.notices = false := by decide +kernel
theorem witness_DoorEdges : (withDoor (settling .closed true)).power = .running
    ∧ ((withDoor (settling .closed true)).channel 0).state = .closed
    ∧ ((withDoor (settling .closed true)).channel 0).doorPending = some ⟨true, 0⟩
    ∧ ((withDoor (settling .held false)).channel 0).state = .held
    ∧ ((withDoor (settling .held false)).channel 0).doorPending = some ⟨false, 0⟩
    ∧ (settling .closed true).config.curtain = some 0
    ∧ ((dock (settling .closed true) (curtainIn .idle none)).doors.curtains.get 0).config.configured = true
    ∧ (dock (settling .closed true) (curtainIn .idle none)).zoneMode 0 ≠ .off
    ∧ (Channel.initial .default).config.zone = none := by decide +kernel
theorem witness_FirstSettlementsAndTrailerEdges :
    ((withDoor (settling .unused true)).channel 0).state = .unused
    ∧ ((withDoor (settling .unused true)).channel 0).doorPending = some ⟨true, 0⟩
    ∧ ({ doorIn .closed with trailerPending := some ⟨true, 0⟩ } : Channel).trailerSettled = false
    ∧ ({ doorIn .closed with trailerSettled := true, trailerPending := some ⟨false, 0⟩ } : Channel).trailerPending
        = some ⟨false, 0⟩
    ∧ (settling .unused true).config.curtain = some 0
    ∧ ((dock (settling .unused true) (curtainIn .idle none)).doors.curtains.get 0).config.configured = true
    ∧ (dock (settling .unused true) (curtainIn .idle none)).zoneMode 0 ≠ .off
    ∧ (curtainIn .idle none).state = .idle ∧ (settling .unused true).config.curtain ≠ some 15
    ∧ (settling .unused false).doorPending = some ⟨false, 0⟩ := by decide +kernel
/-- Door 0 OPEN, its count about to reach WORK's 20 minutes. -/
def holding : State := owing (withDoor { doorIn .opened with interval := 1199 }) (.door 0)
theorem witness_DoorHeld : holding.power = .running ∧ .door 0 ∈ holding.owed ∧ (holding.channel 0).state = .opened
    ∧ (holding.paramsOf holding.phase).longOpen ≠ 0
    ∧ 60 * (holding.paramsOf holding.phase).longOpen ≤ min 65535 ((holding.channel 0).interval + 1) := by decide +kernel

/-- R41, R42: a first level starts a pending change with the door debounce of 8; the eighth scan after it settles it. -/
theorem test_debounce :
    let s := ((withBoard none).setChannel 0 (doorIn .unused)).setLine 0
      ⟨⟨.input, true, false, .doorContact 0⟩, false, none⟩
    let tick := fun s => after (.tick (Table.fill 6 (some 1)) []) s
    ((tick s).channel 0).doorPending = some ⟨true, 8⟩ ∧ ((tick (tick s)).channel 0).doorPending = some ⟨true, 7⟩ := by
  decide +kernel
theorem test_first_settlement : ((after (.firstSettlement 0 .contact) (withDoor (settling .unused true))).channel 0).state
      = .opened
    ∧ (after (.firstSettlement 0 .contact) (withDoor (settling .unused true))).doors.queue = []
    ∧ ((after (.firstSettlement 0 .contact) (dock (settling .unused true) (curtainIn .idle none))).doors.curtains.get 0).state
      = .demanded := by decide +kernel
/-- R54, R123, at a state no run reaches: a granted curtain of a zone that is OFF goes to IDLE, and its release lets curtain 1 have
its grant; curtain 2, which is IDLE, stands as it was. -/
theorem test_first_settlement_release :
    let s := ((withDoor (settling .unused true)).setCurtain 0 { curtainIn .demanded none with granted := true }).setCurtain 1
      (curtainIn .demanded none)
    let t := after (.firstSettlement 0 .contact) s
    (t.doors.curtains.get 0).state = .idle ∧ t.doors.curtains.get 1 = { curtainIn .demanded none with granted := true }
    ∧ t.doors.curtains.get 2 = s.doors.curtains.get 2 := by decide +kernel
/-- R44: the closed interval of 77 seconds is known, so it is recorded. -/
theorem test_door_opened :
    (after (.doorOpened 0) (withDoor { settling .closed true with interval := 77, lastEdge := some 5 })).doors.queue
      = [⟨0, .opened, 0, .work, some 77⟩]
    ∧ ((after (.doorOpened 0) (dock (settling .closed true) (curtainIn .idle none))).doors.curtains.get 0).state
      = .demanded := by decide +kernel
/-- R45: the first edge after initialisation ends an interval of unknown length; the curtain enters its run-on. -/
theorem test_door_closed :
    (after (.doorClosed 0) (withDoor (settling .opened false))).doors.queue = [⟨0, .closed, 0, .work, none⟩]
    ∧ (after (.doorClosed 0) (dock (settling .held false) (curtainIn .demanded none))).doors.curtains.get 0
      = ⟨⟨true, 0, 15⟩, .runOn, some 15, false⟩ := by decide +kernel
theorem test_trailer_edge :
    (after (.settledTrailerEdge 0) (withDoor { doorIn .closed with
      trailerSettled := true, trailerPending := some ⟨true, 0⟩ })).doors.queue
      = [⟨0, .trailerArrived, 0, .work, none⟩] := by decide +kernel
theorem test_door_held : ((after (.doorHeld 0) holding).channel 0).state = .held
    ∧ (after (.doorHeld 0) holding).doors.queue = [⟨0, .held, 0, .work, none⟩]
    ∧ (after (.doorHeld 0) { holding with owed := [] }) = { holding with owed := [] } := by decide +kernel
theorem test_run_on_end :
    (after (.runOnEnd 0) (owing (dock (doorIn .closed) (curtainIn .runOn (some 1))) (.curtain 0))).doors.curtains.get 0
      = ⟨⟨true, 0, 15⟩, .idle, none, false⟩ := by decide +kernel
theorem test_window_end : (after (.windowEnd 0) forecastEnding).doors.forecasts = [] := by decide +kernel
/-- R49, R50: the example of zone 3's ring, D from 600 to 578. -/
theorem test_ring_example :
    let s := { State.reset with doors := { State.reset.doors with
      rings := State.reset.doors.rings.set 3 ⟨118, ⟨[140, 95, 180, 60, 125], rfl⟩⟩ } }
    s.openTime 3 = 600 ∧ s.ringMinute.openTime 3 = 578 := by decide +kernel
theorem test_door_config :
    ((after (.doorConfig sup (some ⟨31, true, some 7, none, 32, 255, 0b1111⟩)) State.reset).channel 31).config
      = ⟨true, some 7, none, 31, 255, 0b1111⟩
    ∧ said .supervisor (after (.doorConfig sup (some ⟨0, true, some 0, none, 8, 32, 0⟩)) (dock (doorIn .closed)
        (curtainIn .idle none))) = some ⟨.active, .bare⟩ := by decide +kernel
theorem test_door_read : (said .panel (after (.doorRead pnl (some ⟨32⟩)) State.reset)) = some ⟨.range, .bare⟩ := by
  decide +kernel
/-- R55: a curtain made configured whose door is open, in a zone not OFF, becomes DEMANDED at once, and is granted (R122). -/
theorem test_curtain_config :
    ((after (.curtainConfig sup (some ⟨0, some true, none, some 121⟩))
      (dock (doorIn .opened) (Curtain.initial .default))).doors.curtains.get 0) = ⟨⟨true, 0, 120⟩, .demanded, none, true⟩ := by
  decide +kernel
/-- R55, R122: the answer shows the grant as it stands after the call, and that there is none where the rating does not fit. -/
theorem test_curtain_config_answer :
    let s := dock (doorIn .opened) (Curtain.initial .default)
    let c := Instr.curtainConfig sup (some ⟨0, some true, none, none⟩)
    said .supervisor (after c s) = some ⟨.ok, .curtain ⟨⟨true, 0, 15⟩, .demanded, none, true⟩⟩
    ∧ said .supervisor (after c { s with budget := { s.budget with
        phaseCap := 9, ratings := { Ratings.default with curtains := Table.fill 16 10 } } })
      = some ⟨.ok, .curtain ⟨⟨true, 0, 15⟩, .demanded, none, false⟩⟩ := by decide +kernel
/-- R56: WORK in force, the zone in AUTO with a boost, a window of 30 minutes wrapped past the end of the week. -/
theorem test_arrival_forecast :
    said .supervisor (after (.arrivalForecast sup (some ⟨0, 31⟩))
      { dock (doorIn .closed) (curtainIn .idle none) with clock := ⟨604799, 0, true⟩ })
      = some ⟨.clamped, .windowEnd 1799⟩
    ∧ said .supervisor (after (.arrivalForecast sup (some ⟨1, 5⟩)) State.reset) = some ⟨.dropped, .bare⟩ := by decide +kernel

/-- R60: a batch of 64 goes out as parts of 24, 24 and 16. -/
theorem test_batch_of_64 : ((batchParts 64 (records 64).doors.queue).map List.length) = [24, 24, 16] := by decide +kernel
theorem test_doorq_thresholds :
    said .supervisor (after (.doorqThresholds sup (some ⟨some 0, some 65⟩)) State.reset)
      = some ⟨.clamped, .thresholds 1 64⟩ := by decide +kernel
/-- R61: turned on with 17 records waiting in WORK, one batch of 16 leaves. -/
theorem test_doorq_notices : (after (.doorqNotices sup (some ⟨true⟩)) (records 17)).doors.queue.length = 1 := by
  decide +kernel
/-- R62: the answer takes records only when it joins the queue. -/
theorem test_doorq_read : (after (.doorqRead sup (some ⟨25⟩)) (records 30)).doors.queue.length = 6
    ∧ (after (.doorqRead sup (some ⟨25⟩)) { records 30 with links := { State.reset.links with
        supervisor := ⟨.hunting, true, false, List.replicate 8 clockUnsetNotice⟩ } }).doors.queue.length = 30 := by
  decide +kernel
theorem test_doorq_flush : said .supervisor (after (.doorqFlush sup (some ())) (records 3)) = some ⟨.ok, .discarded 3⟩ := by
  decide +kernel
/-- R58: a record that meets 64 is lost, and QUEUE_OVERRUN is set. -/
theorem test_queue_overrun :
    ((records 64).offerRecord ⟨0, .opened, 0, .work, none⟩).doors.queue.length = 64
    ∧ ((records 64).offerRecord ⟨0, .opened, 0, .work, none⟩).links.isSet .queueOverrun = true := by decide +kernel

/-! ### Sensor Bus Master -/

/-- A mapped TEMP node. -/
def mapped : State := { withNode (nodeIn .fresh 0) with sensors := { (withNode (nodeIn .fresh 0)).sensors with
  map := { SourceMap.default with temperature := (Table.fill 8 none).set 0 (some 0) } } }

theorem witness_NodeCalls : State.reset.Admits .nodeConfig sup ∧ State.reset.Admits .nodeRead sup
    ∧ (16 : Byte).toNat = (15 : Fin 16).val + 1 ∧ (1 : Byte).toNat = (0 : Fin 16).val + 1
    ∧ (some (some NodeType.gas)) ≠ some none ∧ (0 : Byte).toNat = 0 ∧ 16 < (17 : Byte).toNat
    ∧ (mapped.sensors.nodes.get 0).config.configured = true
    ∧ (∀ k : Fin 16, k < 0 → (mapped.sensors.nodes.get k).config.configured = false)
    ∧ (∀ k : Fin 16, (State.reset.sensors.nodes.get k).config.configured = false) :=
  ⟨⟨rfl, rfl, rfl⟩, ⟨rfl, rfl, rfl⟩, by decide, by decide, by decide, by decide, by decide, by decide +kernel,
    by decide +kernel, by decide +kernel⟩
theorem witness_PollsAndRounds : (withNode (nodeIn .fresh 0)).power = .running
    ∧ (withNode (nodeIn .fresh 0)).sensors.polled = some 0 ∧ State.reset.sensors.polled = none
    ∧ (((withNode (nodeIn .fresh 0)).setNode 5 (nodeIn .lost 9)).sensors.nodes.get 5).config.configured = true
    ∧ (∀ k : Fin 16, 0 < k → k < 5 →
        (((withNode (nodeIn .fresh 0)).setNode 5 (nodeIn .lost 9)).sensors.nodes.get k).config.configured = false)
    ∧ (∀ m : Fin 16, 0 < m → ((withNode (nodeIn .fresh 0)).sensors.nodes.get m).config.configured = false)
    ∧ (∀ k : Fin 16, k < 0 → ((withNode (nodeIn .fresh 0)).sensors.nodes.get k).config.configured = false)
    ∧ State.reset.sensors.roundMark = false
    ∧ ({ State.reset.sensors with roundMark := true } : Sensors).roundMark = true := by decide +kernel
/-- A node at 29 seconds, and one at 119: the limits of 30 and 120 are reached at their next second boundary. -/
theorem witness_NodesGrowStale : SecondOf.node 0 ∈ (owing (withNode (nodeIn .fresh 29)) (.node 0)).owed
    ∧ (nodeIn .fresh 29).config.configured = true
    ∧ (withNode (nodeIn .fresh 29)).sensors.stale ≤ min 65535 (29 + 1)
    ∧ min 65535 (29 + 1) < (withNode (nodeIn .fresh 29)).sensors.degrade
    ∧ (withNode (nodeIn .held 119)).sensors.degrade ≤ min 65535 (119 + 1) := by decide +kernel
theorem witness_SourceMapWrite : mapped.Admits .sourceMapWrite sup
    ∧ (SourceItem.mk (.gas 0) (some 1)).node = some 1 ∧ (mapped.sensors.nodes.get 0).config.configured = true
    ∧ requiredType (.gas 0) ≠ some (mapped.sensors.nodes.get 0).config.type
    ∧ requiredType (.temperature 7) = some (mapped.sensors.nodes.get 0).config.type
    ∧ SourceEntry.temperature 7 = .temperature (BitVec.ofNat 8 (7 : Fin 8).val)
    ∧ (∀ i ∈ [(⟨.gas 0, some 1⟩ : SourceItem)], i.entry ≠ .temperature (BitVec.ofNat 8 (7 : Fin 8).val)) :=
  ⟨⟨rfl, rfl, rfl⟩, by decide +kernel, by decide +kernel, by decide +kernel, by decide +kernel, by decide +kernel, by decide +kernel⟩
theorem witness_SensorLimitsAndSources : mapped.Admits .sensorLimits sup
    ∧ (withNode (nodeIn .held 119)).Admits .sensorLimits sup ∧ 100 ≤ ((withNode (nodeIn .held 119)).sensors.nodes.get 0).age
    ∧ (mapped.sensors.nodes.get 0).config.configured = true ∧ (mapped.sensors.nodes.get 0).status = .fresh
    ∧ (mapped.sensors.nodes.get 0).value = some 117 ∧ (mapped.sensors.nodes.get 1).config.configured = false
    ∧ (mapped.sensors.reading mapped.sensors.map.outdoor).status = .lost :=
  ⟨⟨rfl, rfl, rfl⟩, ⟨rfl, rfl, rfl⟩, by decide +kernel, by decide +kernel, by decide +kernel, by decide +kernel, by decide +kernel, by decide +kernel⟩

/-- 18.3 °C from node 1, its CRC-8 worked out by hand, and the same with its check damaged (R72, R73). -/
theorem test_reply :
    (after (.replyReceived ⟨1, 1, 183, 0x71⟩) (withNode (nodeIn .held 90))).sensors.nodes.get 0
      = ⟨⟨true, .temp, .reject⟩, some 117, .fresh, 0, 0⟩
    ∧ (after (.replyReceived ⟨1, 1, 183, 0x70⟩) (withNode (nodeIn .held 90))).sensors.nodes.get 0
      = ⟨⟨true, .temp, .reject⟩, some 117, .held, 90, 1⟩ := by decide +kernel
/-- R72: ACCEPT uses a damaged reply, marked SUSPECT, and counts it a failure; R76: the round is silent. -/
theorem test_reply_accept :
    let s := after (.replyReceived ⟨1, 1, 183, 0x70⟩)
      (withNode { nodeIn .lost 200 with config := ⟨true, .temp, .accept⟩ })
    s.sensors.nodes.get 0 = ⟨⟨true, .temp, .accept⟩, some 117, .suspect, 0, 1⟩ ∧ s.links.isSet .busSilent = true := by
  decide +kernel
theorem test_poll_wait_end : ((after .pollWaitEnd (withNode (nodeIn .fresh 3))).sensors.nodes.get 0).failures = 1 := by
  decide +kernel
theorem test_node_held :
    ((after (.nodeHeld 0) (owing (withNode (nodeIn .fresh 29)) (.node 0))).sensors.nodes.get 0) = nodeIn .held 30 := by
  decide +kernel
theorem test_node_lost : let s := after (.nodeLost 0) (owing (withNode (nodeIn .held 119)) (.node 0))
    s.sensors.nodes.get 0 = nodeIn .lost 120 ∧ s.links.isSet .sensorLost = true := by decide +kernel
/-- R68: a mapped node may not be configured with another type; unconfiguring it is not refused. -/
theorem test_node_config :
    said .supervisor (after (.nodeConfig sup (some ⟨1, none, some (some .gas), none⟩)) mapped) = some ⟨.active, .bare⟩
    ∧ (after (.nodeConfig sup (some ⟨1, some false, none, none⟩)) mapped).sensors.polled = none := by decide +kernel
theorem test_node_read : said .supervisor (after (.nodeRead sup (some ⟨1⟩)) mapped)
    = some ⟨.ok, .nodeRead (nodeIn .fresh 0) [.temperature 0]⟩ := by decide +kernel
/-- R79: an entry named twice takes its later node. -/
theorem test_source_map :
    (after (.sourceMapWrite sup (some ⟨[⟨.outdoor, some 2⟩, ⟨.outdoor, some 16⟩]⟩)) mapped).sensors.map.outdoor = some 15
    ∧ said .supervisor (after (.sourceMapWrite sup (some ⟨[⟨.outdoor, some 2⟩, ⟨.gas 0, some 1⟩]⟩)) mapped)
      = some ⟨.range, .bare⟩ := by decide +kernel
/-- The example of R77: stale limit 200 under a degrade limit of 120. -/
theorem test_sensor_limits : said .supervisor (after (.sensorLimits sup (some ⟨some 200, none, none⟩)) State.reset)
    = some ⟨.clamped, .sensorLimits 200 201 80⟩
    ∧ said .supervisor (after (.sensorLimits sup (some ⟨some 256, none, none⟩)) State.reset)
      = some ⟨.clamped, .sensorLimits 255 256 80⟩ := by decide +kernel
/-- R74, R75, R77: a degrade limit of 100 finds a node of age 119 past it. -/
theorem test_sensor_limits_compares :
    let s := after (.sensorLimits sup (some ⟨none, some 100, none⟩)) (withNode (nodeIn .held 119))
    s.sensors.nodes.get 0 = nodeIn .lost 119 ∧ s.links.isSet .sensorLost = true
      ∧ said .supervisor s = some ⟨.ok, .sensorLimits 30 100 80⟩ := by decide +kernel

/-! ### Zone Climate Engine -/

/-- Zone 0 in a mode, with a FRESH temperature of code 100 and a FRESH gas reading of 80 ppm mapped to it. -/
def sensed (m : ZoneMode) : State :=
  let s := ((withZone m).setNode 0 ⟨⟨true, .temp, .reject⟩, some 100, .fresh, 0, 0⟩).setNode 1
    ⟨⟨true, .gas, .reject⟩, some 80, .fresh, 0, 0⟩
  { s with sensors := { s.sensors with map := { SourceMap.default with
      temperature := (Table.fill 8 none).set 0 (some 0), gas := (Table.fill 8 none).set 0 (some 1) } } }
/-- The cycle timer about to reach its period. -/
def cycleDue (s : State) : State := owing { s with climate := { s.climate with timer := 9 } } .cycle

theorem witness_ZoneConfigCall : State.reset.Admits .zoneConfig sup ∧ (7 : Byte).toNat = (7 : Fin 8).val
    ∧ (4 : Byte).toNat ≤ 4 ∧ (3 : Byte).toNat ≤ 3 ∧ (60 : Byte).toNat ≤ (60 : Byte).toNat
    ∧ 7 < (8 : Byte).toNat ∧ 4 < (5 : Byte).toNat ∧ 3 < (4 : Byte).toNat :=
  ⟨⟨rfl, rfl, rfl⟩, by decide, by decide, by decide, by decide, by decide, by decide, by decide⟩
theorem witness_ZoneModeAndManual : State.reset.Admits .zoneMode sup ∧ State.reset.Admits .zoneManual sup
    ∧ ZoneMode.auto ≠ .degraded ∧ (7 : Byte).toNat = (7 : Fin 8).val ∧ 7 < (8 : Byte).toNat :=
  ⟨⟨rfl, rfl, rfl⟩, ⟨rfl, rfl, rfl⟩, by decide, by decide, by decide⟩
/-- A zone gone OFF with two heater stages on and a curtain in RUN_ON, and one in MANUAL: a curtain of the zone, one of another,
and a stage that was on. -/
def goneOff : State := (((withZone .off).setCurtain 0 (curtainIn .runOn (some 9))).setCurtain 1
  { curtainIn .runOn (some 9) with config := ⟨true, 1, 15⟩ }).setGrant 0 ⟨2, 1, ⟨[119, 119, 500, 500], rfl⟩, 2, 1⟩
theorem witness_ModeEvents : goneOff.zoneMode 0 = .off ∧ (withZone .manual).zoneMode 0 ≠ .off
    ∧ (goneOff.doors.curtains.get 0).config.zone = 0 ∧ (goneOff.doors.curtains.get 1).config.zone ≠ 0
    ∧ (0 : Fin 4).val < (goneOff.budget.zones.get 0).heat ∧ (1 : Fin 8) ≠ 0 := by decide +kernel
/-- R66, R125: the zone's curtain is IDLE at once, its stages off even within their minimum on. -/
theorem test_mode_event : let t := goneOff.modeEvent 0
    (t.doors.curtains.get 0).state = .idle ∧ (t.doors.curtains.get 1).state = .runOn
    ∧ t.budget.zones.get 0 = ⟨0, 0, ⟨[0, 0, 500, 500], rfl⟩, 0, 0⟩ := by decide +kernel
theorem witness_ClimateSettingsAndReads : State.reset.Admits .cyclePeriod sup ∧ State.reset.Admits .climateSettings sup
    ∧ State.reset.Admits .zoneRead pnl ∧ (7 : Byte).toNat = (7 : Fin 8).val ∧ 7 < (8 : Byte).toNat :=
  ⟨⟨rfl, rfl, rfl⟩, ⟨rfl, rfl, rfl⟩, ⟨rfl, rfl, rfl⟩, by decide, by decide⟩
theorem witness_CycleTimerExpiry : (cycleDue State.reset).power = .running ∧ .cycle ∈ (cycleDue State.reset).owed
    ∧ (cycleDue State.reset).climate.setting ≤ (cycleDue State.reset).climate.timer := by decide +kernel
/-- Each flag a cycle may set, clear before and set after: a zone entering DEGRADED, a deviation of 16 at a limit of 16, and a
gas floor of two fan stages rated 60,000 units each. -/
theorem witness_CycleFlags :
    let d := cycleDue (withZone .auto)
    let v := cycleDue { sensed .auto with climate := { (sensed .auto).climate with deviationLimit := 16 } }
    let c := cycleDue { sensed .auto with budget := { (sensed .auto).budget with
      ratings := { (sensed .auto).budget.ratings with fans := Table.fill 8 60000 } } }
    d.links.isSet .zoneDegraded = false ∧ (after .cycleTimerExpiry d).links.isSet .zoneDegraded = true
    ∧ v.links.isSet .deviation = false ∧ (after .cycleTimerExpiry v).links.isSet .deviation = true
    ∧ c.links.isSet .overcap = false ∧ (after .cycleTimerExpiry c).links.isSet .overcap = true := by decide +kernel
/-- A reading with a value for each source, the outdoor one assumed (80, R77). -/
theorem witness_ZoneInputsTaken : ((sensed .auto).zoneInputs 0).temperature.value = some 100
    ∧ ((sensed .auto).zoneInputs 0).outdoor.value = some 80 ∧ ((sensed .auto).zoneInputs 0).gas.value = some 80 := by
  decide +kernel
/-- A zone OFF, MANUAL, AUTO with its sources, DEGRADED without its temperature, and DEGRADED without its gas alone. -/
theorem witness_ZoneResults : ((zoneIn .off).cycle ((withZone .off).zoneInputs 0)).mode = .off
    ∧ ((zoneIn .manual).cycle ((withZone .manual).zoneInputs 0)).mode = .manual
    ∧ ((zoneIn .auto).cycle ((sensed .auto).zoneInputs 0)).mode = .auto
    ∧ ((zoneIn .auto).cycle ((withZone .auto).zoneInputs 0)).mode = .degraded
    ∧ ((withZone .auto).zoneInputs 0).temperature.status = .lost
    ∧ ((zoneIn .auto).cycle { (sensed .auto).zoneInputs 0 with gas := ⟨.lost, none⟩ }).mode = .degraded
    ∧ ((sensed .auto).zoneInputs 0).temperature.status ≠ .lost
    ∧ ∀ z, ((sensed .auto).zoneInputs z).setpoint ≤ 255 ∧ ((sensed .auto).zoneInputs z).setpointWork ≤ 255
        ∧ ((sensed .auto).zoneInputs z).code ≤ 255 := by decide +kernel
/-- Step 4: an error of 12 plainly asks for stage 3; held at 4 from above while the error is above 14. -/
theorem witness_HeatRequestWithHysteresis : 1 ≤ (zoneIn .auto).config.step ∧ 2 ≤ (zoneIn .auto).config.plain 12
    ∧ (zoneIn .auto).config.plain 12 < 4 ∧ (12 : Int) ≤ 255
    ∧ 255 < ({ (zoneIn .auto).config with step := 64 } : ZoneConfig).heaterStages * 64 := by decide +kernel

/-- R94: stage 4, taken up at 16, is held at 15 and let go at 14; from 0 the request is the plain one. -/
theorem test_hysteresis : (zoneIn .auto).config.request 4 16 = 4 ∧ (zoneIn .auto).config.request 4 15 = 4
    ∧ (zoneIn .auto).config.request 4 14 = 3 ∧ (zoneIn .auto).config.request 0 15 = 3
    ∧ (zoneIn .auto).config.request 4 2 = 0 ∧ ({ (zoneIn .auto).config with step := 64 } : ZoneConfig).request 0 255 = 3 := by
  decide +kernel
/-- R92: k of 64 and a difference of 60 codes need 274 door-seconds for one code; the quotient is at most 186. -/
theorem test_door_loss : doorLoss 274 64 60 = 1 ∧ doorLoss 273 64 60 = 0 ∧ doorLoss 9600 255 80 = 186 := by decide
/-- R92 to R97: WORK's setpoint 116 less the code 100 asks for all four stages; 80 ppm asks for two fan stages. -/
theorem test_cycle_auto : let s := after .cycleTimerExpiry (cycleDue (sensed .auto))
    (s.zoneMode 0, (s.climate.zones.get 0).results.effective, (s.climate.zones.get 0).results.heat,
      (s.climate.zones.get 0).results.gasFloor, s.climate.deviation, s.climate.timer)
      = (.auto, some 16, 4, 2, 16, 0) := by decide +kernel
/-- R85, R98, R99: without sensors an AUTO zone goes DEGRADED, with WORK's 2 fallback stages and one fan stage. -/
theorem test_cycle_degraded : let s := after .cycleTimerExpiry (cycleDue (withZone .auto))
    (s.zoneMode 0, (s.climate.zones.get 0).results.heat, (s.climate.zones.get 0).results.fans,
      s.links.isSet .zoneDegraded, (s.budget.zones.get 0).fans) = (.degraded, 2, 1, true, 1) := by decide +kernel
theorem test_zone_config :
    said .supervisor (after (.zoneConfig sup (some ⟨0, 4, 3, 0, 9, 64, 32, 21, 60, 150, 50, 160, 9, some .auto⟩)) State.reset)
      = some ⟨.clamped, .zoneConfig ⟨4, 3, 1, 1, 64, 31, 20, 60, 150, 60, 150, 8, .auto⟩⟩
    ∧ said .supervisor (after (.zoneConfig sup (some ⟨0, 4, 3, 4, 2, 64, 4, 0, 60, 150, 108, 124, 2, some .off⟩))
        (withZone .auto)) = some ⟨.active, .bare⟩ := by decide +kernel
/-- R84: the answer carries AUTO, the mode before the cycle that finds the sources lost. -/
theorem test_zone_mode :
    said .supervisor (after (.zoneMode sup (some ⟨0, some .manual⟩)) State.reset) = some ⟨.ok, .zoneMode .manual⟩
    ∧ (after (.zoneMode sup (some ⟨0, some .auto⟩)) State.reset).zoneMode 0 = .degraded := by decide +kernel
theorem test_zone_manual : said .supervisor (after (.zoneManual sup (some ⟨0, 5, 3⟩)) (withZone .off))
    = some ⟨.clamped, .zoneManual 4 3⟩ := by decide +kernel
theorem test_cycle_period : said .supervisor (after (.cyclePeriod sup (some ⟨some 60⟩)) State.reset)
    = some ⟨.clamped, .cycle 59 0⟩ := by decide +kernel
/-- The example of R96: only g1 written, 90. -/
theorem test_climate_settings : said .supervisor (after (.climateSettings sup (some ⟨some 90, none, none, none⟩)) State.reset)
    = some ⟨.clamped, .climate 90 91 120 0⟩ := by decide +kernel
theorem test_zone_read : said .panel (after (.zoneRead pnl (some ⟨7⟩)) State.reset)
    = some ⟨.ok, .zone ⟨⟨.default, .off, 0, 0, .initial⟩, 0, 0, 0, 10, 0⟩⟩ := by decide +kernel

/-! ### Load Allocator -/

/-- A demand set for zone 0. -/
def demanding (s : State) (d : ZoneDemand) : State :=
  { s with budget := { s.budget with demand := some ((Table.fill 8 ZoneDemand.offEntry).set 0 d) } }
/-- Two heater stages of zone 0 on for 119 seconds, nothing asked for any more. -/
def stagesOn : State := owing ((demanding State.reset ⟨.auto, some 0, 0, 0, 0⟩).setGrant 0
  ⟨2, 0, ⟨[119, 119, 500, 500], rfl⟩, 0, 0⟩) (.stages 0)
/-- The same two stages past their minimum on of 120 seconds, beside a curtain that waits with a rating no cap holds. -/
def stagesPast : State :=
  let s := ((demanding State.reset ⟨.auto, some 0, 0, 0, 0⟩).setGrant 0 ⟨2, 0, ⟨[120, 120, 500, 500], rfl⟩, 0, 0⟩).setCurtain
    0 (curtainIn .demanded none)
  { s with budget := { s.budget with phaseCap := 9
                                     ratings := { Ratings.default with curtains := (Table.fill 16 10) } } }
/-- A supervisor cap in its last second. -/
def capEnding : State := owing { State.reset with budget := { State.reset.budget with supCap := some ⟨100, some 1⟩ } } .cap
/-- A line bound to heater stage 1 of zone 0. -/
def heatLine : State := State.reset.setLine 0 ⟨⟨.output, true, false, .heat 0 1⟩, false, none⟩

theorem witness_CapCalls : State.reset.Admits .capSet sup ∧ State.reset.Admits .capClear sup ∧ capEnding.power = .running
    ∧ .cap ∈ capEnding.owed ∧ capEnding.budget.supCap = some ⟨100, some 1⟩ :=
  ⟨⟨rfl, rfl, rfl⟩, ⟨rfl, rfl, rfl⟩, rfl, by decide, rfl⟩
theorem witness_RatingsWrite : State.reset.Admits .ratingsWrite sup ∧ RatingItem.heater 0 5 9 ∈ [RatingItem.heater 0 5 9]
    ∧ 4 < (5 : Byte).toNat ∧ (7 : Byte).toNat ≤ 7 ∧ 1 ≤ (4 : Byte).toNat ∧ (4 : Byte).toNat ≤ 4 ∧ (15 : Byte).toNat ≤ 15
    ∧ (23 : Byte).toNat ≤ 23
    ∧ [RatingItem.heater 7 4 1, .heater 7 4 9] = [RatingItem.heater 7 4 1] ++ .heater 7 4 9 :: []
    ∧ (4 : Byte).toNat = (3 : Fin 4).val + 1 :=
  ⟨⟨rfl, rfl, rfl⟩, by decide, by decide, by decide, by decide, by decide, by decide, by decide, rfl, by decide⟩
theorem witness_StageTimesAndBudgetRead : State.reset.Admits .stageTimes sup ∧ State.reset.Admits .budgetRead sup
    ∧ (stagesPast.budget.demandOf 0).heat < (stagesPast.budget.zones.get 0).heat
    ∧ stagesPast.budget.minOn ≤ (stagesPast.budget.zones.get 0).time (stagesPast.budget.zones.get 0).heat
    ∧ (stagesPast.budget.zones.get 1).heat ≤ (stagesPast.budget.demandOf 1).heat
    ∧ (stagesPast.stageChecks.doors.curtains.get 0).state ≠ .idle
    ∧ (stagesPast.stageChecks.doors.curtains.get 0).granted = false :=
  ⟨⟨rfl, rfl, rfl⟩, ⟨rfl, rfl, rfl⟩, by decide +kernel, by decide +kernel, by decide +kernel, by decide +kernel,
    by decide +kernel⟩
/-- Every group asked for its floor of 10 % of 600 units, 1,440 in all, under a phase cap of 100: OVERCAP. -/
def overloaded : State := { State.reset with budget := { State.reset.budget with
  phaseCap := 100, ratings := { Ratings.default with groups := Table.fill 24 600 }
  groups := Table.fill 24 ⟨10, 10, 10⟩ } }
/-- A zone that is not OFF and one that is; a lower rank before a higher one; the reserved class above the cap, and under it. -/
theorem witness_AllocationPass : (stagesOn.budget.demandOf 0).mode ≠ .off ∧ (stagesOn.budget.demandOf 1).mode = .off
    ∧ ((demanding State.reset ⟨.manual, none, 1, 1, 0⟩).budget.demandOf 0).mode = .manual
    ∧ (demanding State.reset ⟨.manual, none, 1, 1, 0⟩).budget.zoneOrder = [0]
    ∧ overloaded.budget.capInForce = 100 ∧ overloaded.pass.budget.reserved = 1440
    ∧ State.reset.pass.budget.reserved ≤ State.reset.budget.capInForce := by decide +kernel
/-- A pass that changes no granted level; one that cuts group 0 of 100 % to 50 %, the request its taking brings naming the floor of
20 again; and one that cuts it where the request stays as it was. -/
def cut (output : Nat) : State :=
  let s := withGroup { groupIn .lit none none with desired := output, output := output, levelRequest := output }
  { s with budget := { s.budget with
      phaseCap := 50, ratings := { Ratings.default with groups := (Table.fill 24 0).set 0 100 }
      groups := s.budget.groups.set 0 ⟨100, 20, 100⟩ } }
def cutBelow : State :=
  let s := cut 40
  s.setGroup 0 { s.lighting.groups.get 0 with output := 100, levelRequest := 100 }
theorem witness_PassesAreHanded :
    (∀ g, (State.reset.pass.budget.groups.get g).level = (State.reset.budget.groups.get g).level)
    ∧ ((cut 40).pass.takeGrants (cut 40)).2 = [] ∧ ((cut 40).pass.budget.groups.get 0).level = 50
    ∧ (cutBelow.pass.takeGrants cutBelow).2 = [⟨0, 20, 50⟩] ∧ (cutBelow.budget.groups.get 0).floorRequest = 20 := by
  decide +kernel
/-- R120, R139, R140: the output comes down to the grant of 50 %, and the request with it; one pass is counted. -/
theorem test_pass_handed : let t := cutBelow.passAndHand
    ((t.lighting.groups.get 0).output, (t.lighting.groups.get 0).levelRequest, (t.budget.groups.get 0).levelRequest,
      t.budget.passes) = (50, 50, 50, 1) := by decide +kernel
/-- R112, R119: in a pass a stage switched on has its time at 0, one that stays on keeps it. -/
theorem test_pass_writes : let s := (demanding State.reset ⟨.auto, some 9, 2, 0, 0⟩).setGrant 0 ⟨1, 0, ⟨[9, 600, 600, 600], rfl⟩, 0, 0⟩
    s.pass.budget.zones.get 0 = ⟨2, 0, ⟨[9, 0, 600, 600], rfl⟩, 1, 0⟩ := by decide +kernel
/-- Room for every request, in the demand set of one zone with a stage on and one asked for that has been off long enough. -/
def roomy : State :=
  let s := (demanding State.reset ⟨.auto, some 9, 2, 1, 1⟩).setGrant 0 ⟨1, 0, ⟨[9, 600, 600, 600], rfl⟩, 0, 0⟩
  { s with budget := { s.budget with ratings := { Ratings.default with
      heaters := Table.fill 8 (Table.fill 4 100), fans := Table.fill 8 10 } } }
theorem witness_PassGrantsAllThatFits : (roomy.budget.zones.get 0).committedNow roomy.budget.minOn = 1
    ∧ roomy.passGrants.total roomy.budget.ratings = 210 ∧ 210 ≤ roomy.budget.capInForce
    ∧ roomy.passGrants.heat.get 0 = 2 ∧ (∀ z : Fin 8, z ≠ 0 → (roomy.budget.demandOf z).mode = .off)
    ∧ (roomy.budget.zones.get 0).heat < 2 ∧ roomy.budget.minOff ≤ (roomy.budget.zones.get 0).time 2 := by decide +kernel
/-- A curtain granted, and one waiting; a release of the first makes room for the second (R123). -/
def twoCurtains : State :=
  let s := (State.reset.setCurtain 0 { curtainIn .idle none with granted := true }).setCurtain 1 (curtainIn .demanded none)
  { s with budget := { s.budget with
      phaseCap := 15, total := 10, ratings := { Ratings.default with curtains := Table.fill 16 10 } } }
theorem witness_WaitingCurtainsRetried : (twoCurtains.doors.curtains.get 0).granted = true
    ∧ (twoCurtains.doors.curtains.get 1).granted = false := by decide +kernel
theorem test_curtain_retried : ((twoCurtains.retryCurtains.doors.curtains.get 1).granted,
    ((twoCurtains.curtainRelease 0).doors.curtains.get 1).granted, (twoCurtains.curtainRelease 0).budget.total)
      = (false, true, 10) := by decide +kernel
/-- R124: of a request for 100 % the 50 units left grant 50 %; with none left the floor alone. -/
theorem witness_LightingRequests :
    ((cut 40).setGroupGrant 0 ⟨0, 0, 0⟩ |>.applyRequest ⟨0, 20, 100⟩).budget.groups.get 0 = ⟨50, 20, 100⟩
    ∧ ({ overloaded with budget := { overloaded.budget with total := 100 } }.applyRequest ⟨0, 20, 100⟩).budget.groups.get 0
        = ⟨20, 20, 100⟩ := by decide +kernel
theorem witness_GrantsAndRequests :
    ((dock (doorIn .opened) (curtainIn .demanded none)).doors.curtains.get 0).state ≠ .idle
    ∧ ((dock (doorIn .opened) (curtainIn .demanded none)).doors.curtains.get 0).granted = false
    ∧ (State.reset.doors.curtains.get 0).state = .idle ∧ (State.reset.doors.curtains.get 0).granted = false
    ∧ (heatLine.lines.lines.get 0).config.mode = .output
    ∧ heatLine.functionOn (heatLine.lines.lines.get 0).config.binding = some false
    ∧ (stagesOn.budget.zones.get 0).heat ≠ 0 ∧ stagesOn.power = .running ∧ .stages 0 ∈ stagesOn.owed
    ∧ (stagesOn.budget.demandOf 0).heat < (stagesOn.budget.zones.get 0).heat ∧ (stagesOn.budget.zones.get 0).heat ≤ 4
    ∧ stagesOn.budget.minOn ≤ min 65535 ((stagesOn.budget.zones.get 0).time 2 + 1) := by decide +kernel

/-- R107: a cap without end; R108: its removal leaves the phase cap. -/
theorem test_cap_set : said .supervisor (after (.capSet sup (some ⟨100, 0⟩)) State.reset) = some ⟨.ok, .capSet 100 100 none⟩
    ∧ said .supervisor (after (.capSet sup (some ⟨100, 1441⟩)) (atTime 604799))
      = some ⟨.clamped, .capSet 100 100 (some 86399)⟩ := by decide +kernel
theorem test_cap_clear_and_expiry : (after (.capClear sup (some ())) capEnding).budget.supCap = none
    ∧ (after .capExpiry capEnding).budget.supCap = none ∧ (after .capExpiry capEnding).budget.passes = 1 := by decide +kernel
theorem test_ratings_write :
    ((after (.ratingsWrite sup (some ⟨[.heater 7 4 1, .heater 7 4 9]⟩)) State.reset).budget.ratings.heaters.get 7).get 3 = 9
    ∧ said .supervisor (after (.ratingsWrite sup (some ⟨[.fan 0 5, .heater 0 5 1]⟩)) State.reset) = some ⟨.range, .bare⟩ := by
  decide +kernel
theorem test_stage_times : said .supervisor (after (.stageTimes sup (some ⟨some 601, none⟩)) State.reset)
    = some ⟨.clamped, .stageTimes 600 60⟩ := by decide +kernel
theorem test_budget_read : ((said .supervisor (after (.budgetRead sup (some ())) State.reset)).map fun r =>
    match r.fields with | .budget b => b.grants.headroom | _ => 0) = some 65535 := by decide +kernel
theorem test_minimum_on_end : (after (.minimumOnEnd 0) stagesOn).budget.zones.get 0
    = ⟨0, 0, ⟨[0, 0, 501, 501], rfl⟩, 0, 0⟩ := by decide +kernel
/-- R110: the draws the manual works out. -/
theorem test_draws : draw 600 10 = 60 ∧ draw 600 40 = 240 ∧ draw 250 1 = 3 := by decide
/-- R117, R118: with room for one fan stage of two, the first round gives one to the MANUAL zone, though AUTO zone 0 is in
greater need. -/
theorem test_fan_rounds :
    let d := ((Table.fill 8 ZoneDemand.offEntry).set 0 ⟨.auto, some 200, 0, 2, 0⟩).set 1 ⟨.manual, none, 0, 2, 0⟩
    let s := { State.reset with budget := { State.reset.budget with
      demand := some d, phaseCap := 15, ratings := { Ratings.default with fans := Table.fill 8 10 } } }
    s.passGrants.fans = (Table.fill 8 0).set 1 1 := by decide +kernel

/-! ### Lighting Unit -/

def lampLine (x : Group) : State := owing (withGroup x) .lighting

theorem witness_GroupConfigCall : State.reset.Admits .groupConfig sup ∧ (23 : Byte).toNat = (23 : Fin 24).val
    ∧ (7 : Byte).toNat = (7 : Fin 8).val ∧ ¬ (true = true ∧ GroupKind.dock = .aisle) ∧ 23 < (24 : Byte).toNat
    ∧ 7 < (8 : Byte).toNat := ⟨⟨rfl, rfl, rfl⟩, by decide, by decide, by decide, by decide, by decide⟩
theorem witness_GroupCallsAndEvents : (withGroup (groupIn .lit none none)).Admits .groupOverride pnl
    ∧ (withGroup (groupIn .overridden none (some ⟨50, 60⟩))).Admits .groupRelease pnl
    ∧ ((withGroup (groupIn .lit none none)).lighting.groups.get 0).state ≠ .disabled ∧ 23 < (24 : Byte).toNat
    ∧ (2000 : Nat) < 3000 := ⟨⟨rfl, rfl, rfl⟩, ⟨rfl, rfl, rfl⟩, by decide +kernel, by decide, by decide⟩
/-- A trimmed group LIT and one VACANT, with a FRESH reading and a LOST one; a request that brings no further one, one that changes
no granted level, and the floor the group's scene gives. -/
def trimmedIn (st : GroupState) : Group := { groupIn st none none with config := ⟨true, 0, .dock, true, true, 15, 10⟩ }
def daylit (st : GroupState) : State := { withGroup (trimmedIn st) with lighting :=
  { (withGroup (trimmedIn st)).lighting with taken := ⟨⟨.fresh, some 3000⟩, 2000, 6⟩ } }
theorem witness_GroupEvents : (trimmedIn .lit).config.trimmed = true ∧ (trimmedIn .vacant).state = .vacant
    ∧ (daylit .lit).lighting.taken.reading.status ≠ .lost ∧ (daylit .lit).lighting.taken.reading.value = some 3000
    ∧ State.reset.lighting.taken.reading.status = .lost
    ∧ (((withGroup (groupIn .lit none none)).lightRequest ⟨0, 20, 100⟩).takeGrants (withGroup (groupIn .lit none none))).2 = []
    ∧ (∀ g, ((State.reset.lightRequest ⟨0, 0, 0⟩).budget.groups.get g).level = (State.reset.budget.groups.get g).level)
    ∧ ((withGroup (groupIn .lit none none)).lighting.groups.get 0).state ≠ .disabled
    ∧ ((withGroup (groupIn .lit none none)).scene 0).floor = 20 := by decide +kernel
/-- An inactive delivery, and a change to active for a VACANT group with an occupancy hold. -/
theorem witness_OccupancyLights : (groupIn .vacant (some 0) none).lastOccupancy = false
    ∧ (groupIn .vacant (some 0) none).state ≠ .disabled ∧ (groupIn .vacant (some 0) none).config.hold ≠ 0
    ∧ (State.reset.lighting.groups.get 0).state = .disabled := by decide +kernel
theorem witness_LampSecondsAndOutputs : (lampLine (groupIn .lit (some 1) none)).power = .running
    ∧ .lighting ∈ (lampLine (groupIn .lit (some 1) none)).owed
    ∧ ((lampLine (groupIn .lit (some 1) none)).lighting.groups.get 0).state = .lit
    ∧ (groupIn .lit (some 1) none).hold = some 1 ∧ (groupIn .lit (some 1) none).override = none
    ∧ .lighting ∈ (lampLine (groupIn .overridden none (some ⟨50, 1⟩))).owed
    ∧ ((lampLine (groupIn .overridden none (some ⟨50, 1⟩))).lighting.groups.get 0).state = .overridden
    ∧ (groupIn .overridden none (some ⟨50, 1⟩)).override = some ⟨50, 1⟩ := by decide +kernel
/-- Group 0 with ramp rate 0, its target 100. -/
def steady : Group := { groupIn .lit none none with config := ⟨true, 0, .dock, true, false, 15, 0⟩ }
/-- A group DISABLED; one below its target, and one at it, with a ramp rate; one with ramp rate 0 whose target a grant or a scene
changes, and one whose target neither changes. -/
theorem witness_OutputsRampAndFollow : (Group.dark ⟨false, 0, .dock, true, false, 15, 10⟩).state = .disabled
    ∧ (groupIn .lit none none).state ≠ .disabled ∧ (groupIn .lit none none).config.rampRate ≠ 0
    ∧ ({ groupIn .lit none none with output := 0 } : Group).output < min 100 100
    ∧ min 100 100 ≤ (groupIn .lit none none).output
    ∧ steady.config.rampRate = 0 ∧ min steady.desired 50 ≠ min steady.desired steady.granted
    ∧ min steady.desired 100 = min steady.desired steady.granted
    ∧ min 60 (max steady.granted 20) ≠ min steady.desired steady.granted := by decide +kernel
/-- R143: with ramp rate 0 a grant or a scene that changes the target sets the output to it at once. -/
theorem test_steady_output : (steady.takeGrant 50).output = 50 ∧ (steady.recompute ⟨60, 30, 20⟩ ⟨⟨.lost, none⟩, 0, 0⟩).output = 60
    ∧ ((({ steady with granted := 50, output := 50 } : Group)).takeGrant 80).output = 80 := by decide +kernel
theorem witness_LightSettingsAndGroupRead : State.reset.Admits .lightSettings sup ∧ State.reset.Admits .groupRead pnl
    ∧ (23 : Byte).toNat = (23 : Fin 24).val ∧ 23 < (24 : Byte).toNat :=
  ⟨⟨rfl, rfl, rfl⟩, ⟨rfl, rfl, rfl⟩, by decide, by decide⟩

/-- R130, R144: a group made enabled is LIT with a full hold, and its output rises to WORK's floor of 20 at once; its request
is granted (no rating, so no draw). -/
theorem test_group_config : let x := (after (.groupConfig sup (some ⟨0, true, 0, some .dock, true, false, 121, 10⟩))
      State.reset).lighting.groups.get 0
    (x.state, x.hold, x.desired, x.output, x.granted) = (.lit, some 7200, 100, 20, 100) := by decide +kernel
/-- R129: an AISLE group may not be door-linked. -/
theorem test_group_config_aisle :
    said .supervisor (after (.groupConfig sup (some ⟨0, true, 0, some .aisle, true, false, 15, 10⟩)) State.reset)
      = some ⟨.range, .bare⟩ := by decide +kernel
/-- R141: a level below the floor of 20 is raised to it. -/
theorem test_group_override :
    said .panel (after (.groupOverride pnl (some ⟨0, 10, 0⟩)) (withGroup (groupIn .lit (some 900) none)))
      = some ⟨.clamped, .groupOverride 20 60⟩ := by decide +kernel
/-- R130: released with its hold at 0, the group is VACANT; with the hold running, LIT. -/
theorem test_group_release :
    ((after (.groupRelease pnl (some ⟨0⟩)) (withGroup (groupIn .overridden (some 0) (some ⟨50, 60⟩)))).lighting.groups.get 0).state
      = .vacant
    ∧ ((after (.groupRelease pnl (some ⟨0⟩)) (withGroup (groupIn .overridden (some 9) (some ⟨50, 60⟩)))).lighting.groups.get 0).state
      = .lit := by decide +kernel
/-- R133, R143: the hold reaches 0: VACANT at WORK's 60 %, the first ramp step of 10 % made. -/
theorem test_hold_expiry : let x := (after (.holdExpiry 0) (lampLine (groupIn .lit (some 1) none))).lighting.groups.get 0
    (x.state, x.desired, x.output) = (.vacant, 60, 90) := by decide +kernel
theorem test_group_override_end :
    ((after (.groupOverrideEnd 0) (lampLine (groupIn .overridden (some 9) (some ⟨50, 1⟩)))).lighting.groups.get 0).state
      = .lit := by decide +kernel
theorem test_light_settings : said .supervisor (after (.lightSettings sup (some ⟨none, some 255⟩)) State.reset)
    = some ⟨.ok, .light 2000 255⟩ := by decide +kernel
theorem test_group_read : said .panel (after (.groupRead pnl (some ⟨24⟩)) State.reset) = some ⟨.range, .bare⟩ := by
  decide +kernel
/-- R136, R137: with the defaults, 3,000 lux take 6 % off a level of 100. -/
theorem test_trim : ((groupIn .lit none none).recompute ⟨100, 60, 20⟩ ⟨⟨.fresh, some 3000⟩, 2000, 6⟩).desired = 100
    ∧ (({ groupIn .lit none none with config := ⟨true, 0, .dock, true, true, 15, 10⟩ } : Group).recompute ⟨100, 60, 20⟩
        ⟨⟨.fresh, some 3000⟩, 2000, 6⟩).desired = 94 := by decide +kernel

/-! ### Line Unit -/

theorem witness_LineCalls : State.reset.lines.dimmers.get 0 = (State.reset.lighting.groups.get 0).output
    ∧ State.reset.Admits .lineConfig sup ∧ (191 : Byte).toNat = (191 : Fin 192).val
    ∧ bindingOf (.doorContact 31) = some (.doorContact 31) ∧ bindingOf (.heat 7 4) = some (.heat 7 4)
    ∧ (∀ b : Byte, b = 0 ∨ b = 7 → ∃ z : Fin 8, b.toNat = z.val)
    ∧ bindingOf (.fan 7 3) = some (.fan 7 3) ∧ bindingOf (.fan 7 4) = none ∧ bindingOf (.heat 7 5) = none
    ∧ bindingOf (.occupancy 23) = some (.occupancy 23) ∧ bindingOf (.curtain 15) = some (.curtain 15)
    ∧ 191 < (192 : Byte).toNat ∧ State.reset.Admits .lineDrive sup ∧ State.reset.Admits .lineRead sup
    ∧ ((withBoard (some 1)).lines.boards.get 0).captured = some 1
    ∧ ((withBoard none).lines.boards.get 0).present = true ∧ (State.reset.lines.boards.get 0).present = false :=
  ⟨by decide +kernel, ⟨rfl, rfl, rfl⟩, by decide, by decide +kernel, by decide +kernel,
    fun _ h => h.elim (fun h => ⟨0, by rw [h]; rfl⟩) fun h => ⟨7, by rw [h]; rfl⟩,
    by decide +kernel, by decide +kernel, by decide +kernel, by decide +kernel, by decide +kernel, by decide, ⟨rfl, rfl, rfl⟩,
    ⟨rfl, rfl, rfl⟩, by decide +kernel, by decide +kernel, by decide +kernel⟩

/-- R150: a line of an absent board may take no binding but SPARE_IN. -/
theorem test_line_config :
    said .supervisor (after (.lineConfig sup (some ⟨0, some .output, false, false, .heat 0 1⟩)) State.reset)
      = some ⟨.range, .bare⟩
    ∧ said .supervisor (after (.lineConfig sup (some ⟨0, some .output, false, true, .heat 0 1⟩)) (withBoard none))
      = some ⟨.ok, .line ⟨.output, false, true, .heat 0 1⟩ false⟩ := by decide +kernel
/-- R154: a SPARE_IN latch may be preset; a bound line may not be driven. -/
theorem test_line_drive : said .supervisor (after (.lineDrive sup (some ⟨5, true⟩)) State.reset) = some ⟨.ok, .latch true⟩
    ∧ said .supervisor (after (.lineDrive sup (some ⟨0, true⟩)) heatLine) = some ⟨.range, .bare⟩ := by decide +kernel
/-- R155: the level captured at the last good scan. -/
theorem test_line_read : said .supervisor (after (.lineRead sup (some ⟨1⟩)) (withBoard (some 2)))
    = some ⟨.ok, .lineRead ⟨.default, false, true, true, true, false, 0, 0⟩⟩ := by decide +kernel

/-! ### Flags, identity, the Settings Store and resets -/

theorem witness_FlagCallsAndIdent : State.reset.Admits .flagsRead sup ∧ State.reset.Admits .flagsClear sup
    ∧ State.reset.Admits .flagsEnable sup ∧ State.reset.Admits .ident pnl ∧ State.reset.links.isSet .clockUnset = true
    ∧ State.reset.links.isSet .overcap = false ∧ State.reset.links.isEnabled .overcap = true
    ∧ State.reset.links.restart = none ∧ State.reset.links.supervisor.queue.length < 8 :=
  ⟨⟨rfl, rfl, rfl⟩, ⟨rfl, rfl, rfl⟩, ⟨rfl, rfl, rfl⟩, ⟨rfl, rfl, rfl⟩, by decide, by decide, by decide, rfl, by decide⟩

theorem test_flags_read : said .supervisor (after (.flagsRead sup (some ())) State.reset)
    = some ⟨.ok, .flags 1 0b1111111111⟩ := by decide +kernel
theorem test_flags_clear : said .supervisor (after (.flagsClear sup (some ⟨0b11⟩)) State.reset)
    = some ⟨.ok, .flags 0 0b1111111111⟩ := by decide +kernel
theorem test_flags_enable : said .supervisor (after (.flagsEnable sup (some ⟨1⟩)) State.reset)
    = some ⟨.ok, .flags 1 1⟩ := by decide +kernel
theorem test_ident : said .panel (after (.ident pnl (some ())) (after (.powerOn 0b000101) State.reset))
    = some ⟨.ok, .ident 0x2A61 240 'B' ⟨[true, false, true, false, false, false], rfl⟩ ⟨none, .blank, .blank⟩⟩ := by decide +kernel

/-- Both areas being saved, KEY high; the operating area being saved after. -/
def saving : State := after (.storeSave sup (some ⟨true, true⟩) true) State.reset
def savingSecond : State := after (.areaWriteComplete true) saving

theorem witness_StoreAndSaves : State.reset.Admits .storeSave sup ∧ State.reset.Admits .storeStatus sup
    ∧ saving.power = .running
    ∧ saving.store.saving = some (.commissioning State.reset.commissioning (some State.reset.operating))
    ∧ savingSecond.store.saving = some (.operating State.reset.operating .valid) ∧ State.reset.store.saving = none :=
  ⟨⟨rfl, rfl, rfl⟩, ⟨rfl, rfl, rfl⟩, by decide +kernel, by decide +kernel, by decide +kernel, rfl⟩
/-- The answer sent; and still waiting. -/
def restartSent : State := { restarting with links := { restarting.links with supervisor := .initial } }
theorem witness_RestartAndPower : State.reset.Admits .restart sup ∧ restartSent.power = .running
    ∧ restartSent.links.restart = some ⟨true, .supervisor, true⟩ ∧ (restartSent.links.link .supervisor).queue = []
    ∧ restarting.links.restart = some ⟨true, .supervisor, true⟩ ∧ (restarting.links.link .supervisor).queue ≠ []
    ∧ { restartSent with owed := [.cap] }.links.restart = restartSent.links.restart
    ∧ { restartSent with owed := [.cap] }.store = restartSent.store :=
  ⟨⟨rfl, rfl, rfl⟩, rfl, rfl, rfl, rfl, by decide +kernel, rfl, rfl⟩

/-- R173, in the order of its table. -/
theorem test_store_save : said .supervisor (after (.storeSave sup (some ⟨true, true⟩) false) State.reset)
      = some ⟨.locked, .bare⟩
    ∧ said .supervisor (after (.storeSave sup (some ⟨false, true⟩) true) saving) = some ⟨.busy, .bare⟩ := by decide +kernel
theorem test_area_write_complete : let s := after (.areaWriteComplete true) savingSecond
    (s.store.commStatus, s.store.operStatus, s.store.lastResult) = (.valid, .valid, some ⟨.valid, .valid⟩) := by decide +kernel
/-- R174: KEY falling abandons the commissioning write, and the operating area follows. -/
theorem test_key_fall : let s := after .keyFall saving
    (s.store.commStatus, s.store.saving.map Saving.area, s.links.isSet .storeDamaged) = (.damaged, some .operating, true) := by
  decide +kernel
theorem test_store_status : said .supervisor (after (.storeStatus sup (some ()) true) saving)
    = some ⟨.ok, .store ⟨some .commissioning, .blank, .blank⟩ none true⟩ := by decide +kernel
theorem test_restart : (after (.restart sup (some ⟨true⟩)) State.reset).links.restart = some ⟨true, .supervisor, true⟩
    ∧ said .supervisor (after (.restart sup (some ⟨true⟩)) saving) = some ⟨.busy, .bare⟩ := by decide +kernel
/-- R2, R8: the clock kept RUNNING at 500 puts the scheduled phase in force. -/
theorem test_reset_takes_effect : (after (.resetTakesEffect 0) restartSent).calendar.record = ⟨.work, .calendar, 500, none⟩
    ∧ (after (.resetTakesEffect 0) restartSent).links.flags = 0 ∧ after (.resetTakesEffect 0) restarting = restarting := by
  decide +kernel
theorem test_power_on : after (.powerOn 0) { saving with clock := ⟨77, 3, true⟩ }
    = { State.reset with store := { State.reset.store with commCopy := .spoiled, commStatus := .damaged, key := true }
                         links := { State.reset.links with
                           flags := 0b1000000001
                           supervisor := ⟨.hunting, false, true, [clockUnsetNotice,
                             ⟨0xF0, 0, .notice (.attention .storeDamaged 0b1000000001 0b1111111111)⟩]⟩ } } := by
  decide +kernel
theorem test_power_on_factory : after (.powerOn 0) State.reset = State.reset := by decide +kernel
theorem test_loss_of_power : (after .lossOfPower saving).store.commCopy = .spoiled
    ∧ (after .lossOfPower saving).power = .unsupplied ∧ after .keyFall silent = silent := by decide +kernel
theorem test_reset_pin_low : (after .resetPinLow State.reset).power = .resetHeld := by decide +kernel

/-! ### Accounting Unit -/

/-- A finished shift beside the current one. -/
def twoShifts : State := { State.reset with accounts :=
  ⟨{ Summary.begin 0 false .work with energy := 9000000 }, some (Summary.begin 5 true .breakTime)⟩ }
theorem witness_ShiftRead : State.reset.power = .running ∧ State.reset.links.restart = none
    ∧ twoShifts.accounts.previous = some (Summary.begin 5 true .breakTime) ∧ State.reset.accounts.previous = none :=
  ⟨rfl, rfl, rfl, rfl⟩
/-- The example of R179: 2,500 units for one hour are reported as 2,500. -/
theorem test_shift_read : ((said .panel (after (.shiftRead pnl (some ⟨some .current⟩)) twoShifts)).map fun r =>
      match r.fields with | .shift (some x) => x.energy | _ => 0) = some 2500
    ∧ said .panel (after (.shiftRead pnl (some ⟨some .previous⟩)) State.reset) = some ⟨.ok, .shift none⟩ := by
  decide +kernel
/-- R181: the match of a shift-start entry rolls the summary over. -/
theorem test_rollover : (State.calendarMinute (withEntry (atTime 21600) (daily 360 .work 0))).accounts.current.start = 21600
    ∧ (State.calendarMinute (withEntry (atTime 21600) (daily 360 .work 0))).accounts.previous
      = some State.reset.accounts.current := by decide +kernel

end Sys2Proof.Tests
end

section
/-! SUPPORT. What every command keeps, said once for all commands but the five that set the clock, start the part up or clear
flags; and the bounds of R1, R31, R57, R58 and R163 through each step. -/

namespace Sys2Proof.Machine

variable {s t : State} {α : Type}

/-! ### A command's effect as a step's outcome -/

/-- The outcome `r` is a next state that keeps what a call keeps. -/
def Result.KeepsCall (s : State) (r : Result) : Prop := ∃ t, r = .next t ∧ s.CallKeeps t

theorem State.Keeps.callKeeps (h : s.Keeps t) : s.CallKeeps t := h.callSound.toCallKeeps

theorem State.run_callKeeps {f : State → State} (s : State) (h : s.CallKeeps (f s)) : Result.KeepsCall s (s.run f) := by
  refine ⟨s.whenRunning f, rfl, ?_⟩
  unfold State.whenRunning
  split
  · exact h
  · exact .refl s

theorem State.run_keeps {f : State → State} (s : State) (h : s.Keeps (f s)) : Result.KeepsCall s (s.run f) :=
  s.run_callKeeps h.callKeeps

/-- A call whose own event, answer and handing on, taken together, keep the invariants. -/
theorem State.runCall_keeps {own : α → State → Taken} (s : State) (k : CallKind) (o : Origin) (b : Body α)
    (h : ∀ a s, State.CallSound s ((own a s).after ((own a s).state.answer k o (own a s).reply))) :
    Result.KeepsCall s (s.runCall k o b own) :=
  s.run_callKeeps (State.takeCall_keeps State.CallKeeps .trans .refl (fun s l => s.callKeeps_setReceiver l _)
    (fun s k o r => (s.callSound_answer k o r).toCallKeeps) s k o b own fun a s => (h a s).toCallKeeps)

theorem State.runCall_sound {own : α → State → Taken} (s : State) (k : CallKind) (o : Origin) (b : Body α)
    (h : ∀ a s, (own a s).Sound s) : Result.KeepsCall s (s.runCall k o b own) :=
  s.run_callKeeps (s.callKeeps_call k o b own h)

/-! ### The rows of the links -/

/-- A link's own event: it lengthens no queue. -/
theorem State.callKeeps_link (s : State) (l : Link) {f : LinkState → LinkState}
    (h : ∀ x, (f x).queue.length ≤ x.queue.length) : s.CallKeeps (s.setLink l (f (s.link l))) :=
  s.callKeeps_setLink l _ fun b => (h _).trans b

theorem State.callKeeps_whenHunting (s : State) (l : Link) {f : LinkState → LinkState}
    (h : ∀ x, (f x).queue.length ≤ x.queue.length) : s.CallKeeps (s.whenHunting l f) := by
  unfold State.whenHunting
  split
  · exact s.callKeeps_link l h
  · exact .refl s

theorem LinkState.hunt_queue (x : LinkState) (b : Byte) : (x.hunt b).queue = x.queue := by
  unfold LinkState.hunt LinkState.hold LinkState.release; split_ifs <;> rfl

theorem LinkState.discard_queue (x : LinkState) (c : DiscardCause) : (x.discard c).queue = x.queue := by
  cases c with
  | lateByte b => exact LinkState.hunt_queue _ b
  | badLength | badStopBit | badCheck | notACall => rfl

theorem LinkState.sent_length (x : LinkState) : x.sent.queue.length ≤ x.queue.length := by
  unfold LinkState.sent; split
  · simp
  · exact Nat.le_refl _

theorem State.callKeeps_discard (s : State) (l : Link) (c : DiscardCause) :
    s.CallKeeps (if (s.link l).receiver = .receiving then s.setLink l ((s.link l).discard c) else s) := by
  split
  · exact s.callKeeps_link l fun x => (congrArg List.length (x.discard_queue c)).le
  · exact .refl s

theorem State.callKeeps_takeUnknown (s : State) (o : Origin) (kind : Byte) : s.CallKeeps (s.takeUnknown o kind) := by
  unfold State.takeUnknown
  dsimp only
  split
  · exact (s.callKeeps_setReceiver _ _).trans (State.callSound_answerCode _ _ _ _).toCallKeeps
  · exact s.callKeeps_setReceiver _ _

/-! ### The store's calls and the rows of power -/

theorem State.storeCall_keeps {own : α → State → Taken} (s : State) (key : Bool) (k : CallKind) (o : Origin)
    (b : Body α) (h : ∀ a s, (own a s).Sound s) :
    Result.KeepsCall s (s.run fun s => (s.seeKey key).takeCall k o b own) :=
  s.run_callKeeps ((s.keeps_seeKey key).callKeeps.trans (State.callKeeps_call _ k o b own h))

theorem State.callKeeps_power (s : State) (p : Power) : s.CallKeeps { s with power := p } :=
  ⟨rfl, rfl, rfl, fun _ => id, fun b => ⟨b.second, b.tick, b.queues, b.staging, b.keys, b.records, b.forecasts, b.oneEach⟩,
   fun o => o.of_eq rfl rfl, State.lamps_of_eq rfl fun _ => rfl, id⟩

theorem ownStoreStatus_sound (a : Unit) (s : State) : (ownStoreStatus a s).Sound s := .report s _

theorem ownClockRead_sound (a : Unit) (s : State) : (ownClockRead a s).Sound s := .report s _

theorem ownPhaseRead_sound (a : Unit) (s : State) : (ownPhaseRead a s).Sound s := .report s _

theorem ownStagedRead_sound (a : IndexArgs) (s : State) : (ownStagedRead a s).Sound s := .report s _

theorem ownBudgetRead_sound (a : Unit) (s : State) : (ownBudgetRead a s).Sound s := .report s _

theorem ownIdent_sound (a : Unit) (s : State) : (ownIdent a s).Sound s := .report s _

theorem ownFlagsRead_sound (a : Unit) (s : State) : (ownFlagsRead a s).Sound s := .same (.refl s) _

/-! ### Every command -/

/-- The commands that keep the clock's reading, the boards and the flags: all but a start-up, TICK, CLOCK_SET and
FLAGS_CLEAR. -/
def Instr.ordinary : Instr → Bool
  | .powerOn .. | .resetTakesEffect .. | .tick .. | .clockSet .. | .flagsClear .. => false
  | _ => true

theorem exec_keepsCall (c : Instr) (s : State) (h : Instr.ordinary c = true) : Result.KeepsCall s (exec c s) := by
  cases c with
  | powerOn | resetTakesEffect | tick | clockSet | flagsClear => exact absurd h Bool.false_ne_true
  | firstSettlement d k =>
    refine s.run_keeps ?_
    cases k <;> dsimp only <;> split
    · exact s.keeps_settleDoor d
    · exact .refl s
    · exact s.keeps_settleTrailer d
    · exact .refl s
  | doorOpened d =>
    refine s.run_keeps ?_
    split
    · exact s.keeps_doorOpens d
    · exact .refl s
  | doorClosed d =>
    refine s.run_keeps ?_
    split
    · exact s.keeps_doorCloses d
    · exact .refl s
  | settledTrailerEdge d =>
    refine s.run_keeps ?_
    split
    · exact s.keeps_settleTrailer d
    · exact .refl s
  | doorHeld | runOnEnd | windowEnd | overrideTimeEnd | capExpiry | holdExpiry | groupOverrideEnd | cycleTimerExpiry
  | minimumOnEnd | nodeHeld | nodeLost => exact s.run_keeps (s.keeps_takeNamed _ _)
  | replyReceived r => exact s.run_keeps (s.keeps_takeReply r)
  | pollWaitEnd => exact s.run_keeps s.keeps_endWait
  | linkHold l => exact s.run_callKeeps (s.callKeeps_whenHunting l fun _ => Nat.le_refl _)
  | linkRelease l => exact s.run_callKeeps (s.callKeeps_whenHunting l fun _ => Nat.le_refl _)
  | frameBegins l => exact s.run_callKeeps (s.callKeeps_whenHunting l fun _ => Nat.le_refl _)
  | frameDiscarded l x => exact s.run_callKeeps (s.callKeeps_discard l x)
  | frameSent l => exact s.run_callKeeps (s.callKeeps_link l LinkState.sent_length)
  | unknownCall o k => exact s.run_callKeeps (s.callKeeps_takeUnknown o k)
  | areaWriteComplete b => exact s.run_keeps (s.keeps_areaWritten b)
  | keyFall => exact s.run_keeps (s.keeps_seeKey false)
  | lossOfPower => exact ⟨_, rfl, s.keeps_cutShort.callKeeps.trans (State.callKeeps_power _ _)⟩
  | resetPinLow => exact ⟨_, rfl, s.keeps_cutShort.callKeeps.trans (State.callKeeps_power _ _)⟩
  | storeSave o b key => exact s.storeCall_keeps key _ o b ownStoreSave_sound
  | storeStatus o b key => exact s.storeCall_keeps key _ o b ownStoreStatus_sound
  | sceneWrite o b => exact s.runCall_keeps _ o b fun a s => ownSceneWrite_sound _ a s _ o
  | phaseForce o b => exact s.runCall_keeps _ o b fun a s => ownPhaseForce_sound a s _ o
  | phaseExtend o b => exact s.runCall_keeps _ o b fun a s => ownPhaseExtend_sound a s _ o
  | phaseRelease o b => exact s.runCall_keeps _ o b fun a s => ownPhaseRelease_sound a s _ o
  | clockRead o b => exact s.runCall_sound _ o b ownClockRead_sound
  | calWrite o b => exact s.runCall_sound _ o b (ownCalWrite_sound o.link)
  | calRead o b => exact s.runCall_sound _ o b ownCalRead_sound
  | calSettings o b => exact s.runCall_sound _ o b ownCalSettings_sound
  | phaseRead o b => exact s.runCall_sound _ o b ownPhaseRead_sound
  | phaseWrite o b => exact s.runCall_sound _ o b (ownPhaseWrite_sound o.link)
  | stagedRead o b => exact s.runCall_sound _ o b ownStagedRead_sound
  | stagedDiscard o b => exact s.runCall_sound _ o b ownStagedDiscard_sound
  | phaseTableRead o b => exact s.runCall_sound _ o b ownPhaseTableRead_sound
  | sceneRead o b => exact s.runCall_sound _ o b ownSceneRead_sound
  | doorConfig o b => exact s.runCall_sound _ o b ownDoorConfig_sound
  | doorRead o b => exact s.runCall_sound _ o b ownDoorRead_sound
  | curtainConfig o b => exact s.runCall_sound _ o b ownCurtainConfig_sound
  | arrivalForecast o b => exact s.runCall_sound _ o b ownArrivalForecast_sound
  | doorqThresholds o b => exact s.runCall_sound _ o b ownDoorqThresholds_sound
  | doorqNotices o b => exact s.runCall_sound _ o b ownDoorqNotices_sound
  | doorqRead o b => exact s.runCall_sound _ o b (ownDoorqRead_sound o.link)
  | doorqFlush o b => exact s.runCall_sound _ o b ownDoorqFlush_sound
  | nodeConfig o b => exact s.runCall_sound _ o b ownNodeConfig_sound
  | nodeRead o b => exact s.runCall_sound _ o b ownNodeRead_sound
  | sourceMapWrite o b => exact s.runCall_sound _ o b ownSourceMapWrite_sound
  | sensorLimits o b => exact s.runCall_sound _ o b ownSensorLimits_sound
  | zoneConfig o b => exact s.runCall_sound _ o b ownZoneConfig_sound
  | zoneMode o b => exact s.runCall_sound _ o b ownZoneMode_sound
  | zoneManual o b => exact s.runCall_sound _ o b ownZoneManual_sound
  | cyclePeriod o b => exact s.runCall_sound _ o b ownCyclePeriod_sound
  | climateSettings o b => exact s.runCall_sound _ o b ownClimateSettings_sound
  | zoneRead o b => exact s.runCall_sound _ o b ownZoneRead_sound
  | capSet o b => exact s.runCall_sound _ o b ownCapSet_sound
  | capClear o b => exact s.runCall_sound _ o b ownCapClear_sound
  | ratingsWrite o b => exact s.runCall_sound _ o b ownRatingsWrite_sound
  | stageTimes o b => exact s.runCall_sound _ o b ownStageTimes_sound
  | budgetRead o b => exact s.runCall_sound _ o b ownBudgetRead_sound
  | groupConfig o b => exact s.runCall_sound _ o b ownGroupConfig_sound
  | lightSettings o b => exact s.runCall_sound _ o b ownLightSettings_sound
  | groupOverride o b => exact s.runCall_sound _ o b ownGroupOverride_sound
  | groupRelease o b => exact s.runCall_sound _ o b ownGroupRelease_sound
  | groupRead o b => exact s.runCall_sound _ o b ownGroupRead_sound
  | lineConfig o b => exact s.runCall_sound _ o b ownLineConfig_sound
  | lineDrive o b => exact s.runCall_sound _ o b ownLineDrive_sound
  | lineRead o b => exact s.runCall_sound _ o b ownLineRead_sound
  | ident o b => exact s.runCall_sound _ o b ownIdent_sound
  | flagsRead o b => exact s.runCall_sound _ o b ownFlagsRead_sound
  | flagsEnable o b => exact s.runCall_sound _ o b ownFlagsEnable_sound
  | restart o b => exact s.runCall_sound _ o b (ownRestart_sound o.link)
  | shiftRead o b => exact s.runCall_sound _ o b ownShiftRead_sound

/-! ### The bounds (O1) -/

/-- The bounds speak of these fields alone. -/
theorem State.Bounded.of_eq (b : s.Bounded) (hk : t.clock.weekSecond < Config.weekSeconds ∧ t.clock.tick < Config.ticksPerSecond)
    (hl : ∀ l, (t.links.link l).queue = (s.links.link l).queue) (hc : t.calendar = s.calendar) (hd : t.doors = s.doors) :
    t.Bounded :=
  ⟨hk.1, hk.2, fun l => hl l ▸ b.queues l, hc ▸ b.staging, hc ▸ b.keys, hd ▸ b.records, hd ▸ b.forecasts, hd ▸ b.oneEach⟩

theorem State.startUp_bounded (s : State) (boards : BitVec 6) (keep : Bool) (b : s.Bounded) :
    (s.startUp boards keep).Bounded :=
  (s.keeps_startUp boards keep).bounded
    (s.reinitialised_bounded boards _ (s.clockAfter_bounded keep ⟨b.second, b.tick⟩))

theorem State.restartNow_bounded (s : State) (boards : BitVec 6) (b : s.Bounded) : (s.restartNow boards).Bounded := by
  unfold State.restartNow
  split
  · exact b
  · exact s.startUp_bounded boards _ b

theorem State.tick_bounded (s : State) (capture : Capture) (order : List TickEvent) (b : s.Bounded) :
    (s.tick capture order).Bounded := by
  obtain ⟨u, v, due, rfl, events⟩ := s.tick_spec capture order
  exact events.bounded ((due.bounded b).of_eq (Clock.advance_bounded b.second) (fun _ => rfl) rfl rfl)

theorem ownClockSet_bounded (a : ClockSetArgs) (s : State) (k : CallKind) (o : Origin) (b : s.Bounded) :
    ((ownClockSet a s).after ((ownClockSet a s).state.answer k o (ownClockSet a s).reply)).Bounded := by
  unfold ownClockSet
  dsimp only
  split
  · exact (State.callSound_answer s k o _).bounded b
  · rename_i h
    refine (State.keeps_setEvent _ _ _).bounded ((State.callSound_answer _ k o _).bounded ?_)
    exact b.of_eq ⟨Nat.lt_of_not_le h, Nat.succ_pos 15⟩ (fun _ => rfl) rfl rfl

theorem ownFlagsClear_bounded (a : FlagSetArgs) (s : State) (k : CallKind) (o : Origin) (b : s.Bounded) :
    ((ownFlagsClear a s).after ((ownFlagsClear a s).state.answer k o (ownFlagsClear a s).reply)).Bounded :=
  (State.callSound_answer _ k o _).bounded (b.of_eq ⟨b.second, b.tick⟩ (fun l => by cases l <;> rfl) rfl rfl)

theorem State.whenRunning_bounded {f : State → State} (h : (f s).Bounded) (b : s.Bounded) :
    (s.whenRunning f).Bounded := by
  unfold State.whenRunning
  split
  · exact h
  · exact b

theorem State.takeCall_bounded {own : α → State → Taken} (k : CallKind) (o : Origin) (body : Body α)
    (h : ∀ a s, State.Bounded s → ((own a s).after ((own a s).state.answer k o (own a s).reply)).Bounded)
    (b : s.Bounded) : (s.takeCall k o body own).Bounded :=
  State.takeCall_keeps (fun s t => s.Bounded → t.Bounded) (fun h k x => k (h x)) (fun _ => id)
    (fun s l => (s.callKeeps_setReceiver l _).bounded) (fun s k o r => (s.callSound_answer k o r).bounded) s k o body own h b

theorem exec_bounded (c : Instr) (b : s.Bounded) : ∃ t, exec c s = .next t ∧ t.Bounded := by
  by_cases h : Instr.ordinary c = true
  · obtain ⟨t, e, k⟩ := exec_keepsCall c s h
    exact ⟨t, e, k.bounded b⟩
  · cases c with
    | powerOn boards => exact ⟨_, rfl, State.startUp_bounded _ boards false (s.keeps_cutShort.bounded b)⟩
    | resetTakesEffect boards => exact ⟨_, rfl, State.whenRunning_bounded (s.restartNow_bounded boards b) b⟩
    | tick capture order => exact ⟨_, rfl, State.whenRunning_bounded (s.tick_bounded capture order b) b⟩
    | clockSet o body =>
      exact ⟨_, rfl, State.whenRunning_bounded
        (State.takeCall_bounded _ o body (fun a s => ownClockSet_bounded a s _ o) b) b⟩
    | flagsClear o body =>
      exact ⟨_, rfl, State.whenRunning_bounded
        (State.takeCall_bounded _ o body (fun a s => ownFlagsClear_bounded a s _ o) b) b⟩
    | _ => exact absurd rfl h

/-- Settles O1: a step runs one command, and each command keeps the bounds. -/
theorem stepKeepsBounded : Obligations.StepKeepsBounded := by
  intro s t b h
  unfold step at h
  split at h
  · cases h; exact b
  · rename_i c rest _
    have b' : State.Bounded { s with pending := rest } := b.of_eq ⟨b.second, b.tick⟩ (fun _ => rfl) rfl rfl
    obtain ⟨u, e, bu⟩ := exec_bounded c b'
    cases e.symm.trans h
    exact bu

/-! ### The reset state (O6) -/

theorem State.reset_bounded : State.reset.Bounded where
  second    := by decide
  tick      := by decide
  queues    := fun l => by cases l <;> decide
  staging   := Nat.zero_le _
  keys      := List.nodup_nil
  records   := Nat.zero_le _
  forecasts := Nat.zero_le _
  oneEach   := List.nodup_nil

theorem State.reset_ordered : State.reset.SettingsOrdered where
  working := Operating.default_ordered
  stored  := trivial
  saving  := fun _ h => nomatch h

theorem State.reset_group (g : Fin 24) : State.reset.lighting.groups.get g = .dark .default := Table.get_fill _ g

/-- Every lamp group is DISABLED after a first power-on, so no floor holds it up. -/
theorem State.reset_lamps : State.reset.LampFloors := fun g lit => absurd (congrArg Group.state (reset_group g)) lit

theorem State.reset_caps : State.reset.LampsCapped := by
  intro g
  have dimmer : State.reset.lines.dimmers.get g = 0 := Table.get_fill _ g
  rw [reset_group, dimmer]
  exact ⟨Nat.le_refl _, fun _ => ⟨rfl, rfl⟩, rfl⟩

theorem State.reset_startUp : State.reset.cutShort.startUp 0 false = State.reset := by decide +kernel

theorem State.reset_flags (f : Flag) : State.reset.links.isSet f = true ↔ f = .clockUnset := by
  cases f <;> decide

/-- Settles O6: the reset state's fields are literals, and its start-up is run. -/
theorem resetState : Obligations.ResetState :=
  ⟨⟨State.reset_bounded, State.reset_ordered, State.reset_lamps, State.reset_caps⟩,
   congrArg Host.Outcome.next State.reset_startUp, rfl, rfl, State.reset_flags, rfl⟩

end Sys2Proof.Machine
end

section
/-! SUPPORT. The calls of the Shed Clock and of the calendar's tables: a call that answers at once is `runCall_answers`, one that
hands something on is `runCall_hands`. -/

namespace Sys2Proof.Machine

variable {s t u : State} {α : Type} {k : CallKind} {o : Origin}

/-! ### A call answered -/

/-- A call that reaches its block, leaves `u` in place of `s` and hands nothing on. -/
theorem State.runCall_answers {own : α → State → Taken} {a : α} {r : Reply} (h : s.Admits k o) (u : State)
    (e : own a (s.setReceiver o.link .hunting) = { state := u.setReceiver o.link .hunting, reply := r }) :
    s.runCall k o (some a) own = .next (u.answered k o r) := by
  rw [State.runCall_taken h, e]
  exact congrArg _ (State.answer_eq u k o r)

/-- A call that reaches its block, leaves `u` in place of `s` and hands `f` on after its answer. -/
theorem State.runCall_hands {own : α → State → Taken} {a : α} {r : Reply} {f : State → State} (h : s.Admits k o)
    (u : State)
    (e : own a (s.setReceiver o.link .hunting) = { state := u.setReceiver o.link .hunting, reply := r, after := f }) :
    s.runCall k o (some a) own = .next (f (u.answered k o r)) := by
  rw [State.runCall_taken h, e]
  exact congrArg (fun x => Host.Outcome.next (f x)) (State.answer_eq u k o r)

/-- A call turned away with a status alone. -/
theorem State.runCall_turnedAway {own : α → State → Taken} {a : α} {x : Status} (h : s.Admits k o)
    (e : own a (s.setReceiver o.link .hunting) = .turnedAway (s.setReceiver o.link .hunting) x) :
    s.runCall k o (some a) own = .next (s.answered k o ⟨x, .bare⟩) := State.runCall_answers h s e

/-! ### A minute boundary taken by the Shift Calendar (R14, R21) -/

theorem PhaseRecord.overridden_iff (r : PhaseRecord) : r.overridden = true ↔ r.source = .forced ∨ r.source = .extended := by
  simp [PhaseRecord.overridden]

theorem State.calendarMinute_idle (h : s.clock.running = false ∨ s.calendar.record.overridden = true) :
    s.calendarMinute = s := if_pos h

theorem State.calendarMinute_free (hr : s.clock.running = true) (ho : s.calendar.record.overridden = false) :
    s.calendarMinute = (match winner s.calendar.entries s.minute with
      | some e => s.takeMatch e
      | none => s.evaluateLead) := if_neg (by simp [hr, ho])

theorem State.calendarMinute_match {e : CalEntry} (hr : s.clock.running = true)
    (ho : s.calendar.record.overridden = false) (hw : winner s.calendar.entries s.minute = some e) :
    s.calendarMinute = s.takeMatch e := by rw [State.calendarMinute_free hr ho, hw]

theorem State.calendarMinute_lead (hr : s.clock.running = true) (ho : s.calendar.record.overridden = false)
    (hw : winner s.calendar.entries s.minute = none) : s.calendarMinute = s.evaluateLead := by
  rw [State.calendarMinute_free hr ho, hw]

/-! ### The set event (R3, R13) -/

/-- The minute boundary of a changed minute, as the rings take it. -/
def State.ringsMoved (s : State) (changed : Bool) : State := if changed then s.ringMinute else s

/-- A set event with nothing to settle: the clock was RUNNING and the minute stands. -/
theorem State.setEvent_nothing (s : State) : s.setEvent false false = s := by simp [State.setEvent]

theorem State.setEvent_overridden (wasUnset changed : Bool) (ho : s.calendar.record.overridden = true) :
    s.setEvent wasUnset changed = s.ringsMoved changed := by
  cases changed
  · simp [State.setEvent, State.ringsMoved, ho]
  · have : s.ringMinute.calendarMinute = s.ringMinute :=
      State.calendarMinute_idle (s := s.ringMinute) (.inr ho)
    simp [State.setEvent, State.ringsMoved, ho, this]

/-- The match of a delivered boundary is the match of case 1: it is taken once. -/
theorem State.setEvent_match {wasUnset changed : Bool} {e : CalEntry} (hr : s.clock.running = true)
    (ho : s.calendar.record.overridden = false) (hc : (wasUnset || changed) = true)
    (hw : winner s.calendar.entries s.minute = some e) :
    s.setEvent wasUnset changed = (s.ringsMoved changed).takeMatch e := by
  cases changed
  · have : wasUnset = true := by simpa using hc
    simp [State.setEvent, State.ringsMoved, ho, hw, this]
  · have : s.ringMinute.calendarMinute = s.ringMinute.takeMatch e :=
      State.calendarMinute_match (s := s.ringMinute) hr ho hw
    simp [State.setEvent, State.ringsMoved, ho, hw, this]

/-- With no match, and no lead already due at the delivered boundary, the outcome is settled once. -/
theorem State.setEvent_settles {wasUnset changed : Bool} (hr : s.clock.running = true)
    (ho : s.calendar.record.overridden = false) (hc : (wasUnset || changed) = true)
    (hw : winner s.calendar.entries s.minute = none)
    (hl : ¬ (s.phase = .setback ∧ s.calendar.record.source = .calendar ∧ s.leadHoldsNow = true)) :
    s.setEvent wasUnset changed = (s.ringsMoved changed).settleOutcome := by
  cases changed
  · have : wasUnset = true := by simpa using hc
    simp [State.setEvent, State.ringsMoved, ho, hw, this]
  · have : s.ringMinute.calendarMinute = s.ringMinute :=
      (State.calendarMinute_lead (s := s.ringMinute) hr ho hw).trans (if_neg hl)
    simp [State.setEvent, State.ringsMoved, ho, hw, this]

/-- Cases 2 and 3 of R13, for a running clock. -/
theorem State.settleOutcome_eq (hr : s.clock.running = true) (outcome : Phase × Source)
    (h : outcome = if lookup s.calendar.entries s.calendar.noClock s.minute = .setback ∧ s.leadHoldsNow = true
      then (.preheat, .lead) else (lookup s.calendar.entries s.calendar.noClock s.minute, .calendar)) :
    s.settleOutcome =
      if (s.phase, s.calendar.record.source) = outcome then s else s.transition outcome.1 outcome.2 none false := by
  have hs : s.scheduled = lookup s.calendar.entries s.calendar.noClock s.minute := by simp [State.scheduled, hr]
  unfold State.settleOutcome
  rw [hs, h]

/-! ### CLOCK_READ and CLOCK_SET (R3, R4) -/

/-- CLOCK_SET within the week: the clock loaded, the answer offered, then the set event. -/
theorem exec_clockSet (h : s.Admits .clockSet o) (a : ClockSetArgs) (ha : a.weekSecond.toNat < 604800) :
    exec (.clockSet o (some a)) s = .next (State.setEvent
      (State.answered { s with clock := ⟨a.weekSecond.toNat, 0, true⟩ } .clockSet o ⟨.ok, .bare⟩)
      (!s.clock.running) (a.weekSecond.toNat / 60 != s.clock.weekSecond / 60)) := by
  refine State.runCall_hands h { s with clock := ⟨a.weekSecond.toNat, 0, true⟩ }
    (f := fun t => t.setEvent (!s.clock.running) (a.weekSecond.toNat / 60 != s.clock.weekSecond / 60)) ?_
  unfold ownClockSet
  dsimp only
  rw [if_neg (show ¬ Config.weekSeconds ≤ a.weekSecond.toNat from Nat.not_le.mpr ha)]
  rfl

/-- Settles O12. -/
theorem clockCalls : Obligations.ClockCalls := by
  refine ⟨fun s o h => State.runCall_answers h s rfl, fun s o a h ha => ?_, fun s o a h ha hr hm => ?_⟩
  · exact State.runCall_turnedAway h (if_pos ha)
  · rw [exec_clockSet h a ha, hr, hm]
    simp [State.setEvent_nothing]

/-- Settles O13, one part for each case of R13. -/
theorem setEventFollowsClockSet : Obligations.SetEventFollowsClockSet := by
  intro s u v o a h ha hu hc hv
  have clock : u.clock = ⟨a.weekSecond.toNat, 0, true⟩ := by rw [hu]; rfl
  have running : u.clock.running = true := by rw [clock]
  have minute : u.minute = a.weekSecond.toNat / 60 := by simp [State.minute, minuteOfWeek, clock]
  have calendar : u.calendar = s.calendar := by rw [hu]; rfl
  have deficit : u.climate = s.climate := by rw [hu]; rfl
  generalize hchanged : (a.weekSecond.toNat / 60 != s.clock.weekSecond / 60) = changed
  have moved : v = u.ringsMoved changed := by
    rw [hv, ← hchanged]
    by_cases hm : a.weekSecond.toNat / 60 = s.clock.weekSecond / 60 <;> simp [State.ringsMoved, hm]
  have delivered : (!s.clock.running || changed) = true := by
    rw [← hchanged]
    simpa using hc
  have run : exec (.clockSet o (some a)) s = .next (u.setEvent (!s.clock.running) changed) := by
    rw [exec_clockSet h a ha, hu, hchanged]
  rw [run, moved, ← calendar, ← deficit]
  refine ⟨fun ho => ?_, fun e ho hw => ?_, fun ho hw hl outcome houtcome => ?_⟩
  · rw [State.setEvent_overridden _ _ ho]
  · rw [State.setEvent_match running ho delivered (minute ▸ hw)]
    rfl
  · have phase : s.phase = u.phase := by simp [State.phase, calendar]
    have lead : u.leadHoldsNow
        = leadHolds u.calendar.entries (a.weekSecond.toNat / 60) u.climate.deficit u.calendar.leadRate := by
      rw [State.leadHoldsNow, minute]
    rw [← lead, phase] at hl
    rw [← lead] at houtcome
    rw [State.setEvent_settles running ho delivered (minute ▸ hw) hl, phase]
    have fields : (u.ringsMoved changed).clock = u.clock ∧ (u.ringsMoved changed).calendar = u.calendar
        ∧ (u.ringsMoved changed).climate = u.climate := by cases changed <;> exact ⟨rfl, rfl, rfl⟩
    obtain ⟨vc, vk, vd⟩ := fields
    have key := State.settleOutcome_eq (s := u.ringsMoved changed) (by rw [vc, running]) outcome (by
      rw [houtcome]
      simp only [State.leadHoldsNow, State.minute, vc, vk, vd, clock, minuteOfWeek])
    rw [key, vk, show (u.ringsMoved changed).phase = u.phase from congrArg (·.record.phase) vk]

end Sys2Proof.Machine
end

section
/-! SUPPORT. The calls of the calendar, of the phase record and of the reads of the tables (R6, R7, R10, R15 to R19, R35, R36,
R39). -/

namespace Sys2Proof.Machine

variable {s t u : State} {α : Type} {k : CallKind} {o : Origin}

/-! ### Numbers that name rows -/

theorem row_of_val {n : Nat} {b : Byte} {i : Fin n} (h : b.toNat = i.val) : row n b = some i := by
  unfold row
  rw [dif_pos (h ▸ i.isLt)]
  exact congrArg some (Fin.ext h)

theorem row_outside {n : Nat} {b : Byte} (h : n ≤ b.toNat) : row n b = none := dif_neg (Nat.not_lt.mpr h)

/-! ### CAL_WRITE (R6, R32, R33) -/

/-- The reply CAL_WRITE gives for an entry it takes. -/
def calWriteReply (a : CalWriteArgs) (i : Fin 24) (e : CalEntry) : Reply :=
  if a.allowance.toNat ≤ 120 then ⟨.ok, .bare⟩ else ⟨.clamped, .calStored i e⟩

theorem calWriteReply_eq (a : CalWriteArgs) (i : Fin 24) (p : Phase) :
    (if (writtenEntry a p).allowance = a.allowance.toNat then replyOnly .ok
      else ⟨.clamped, .calStored i (writtenEntry a p)⟩) = calWriteReply a i (writtenEntry a p) := by
  have : (writtenEntry a p).allowance = a.allowance.toNat ↔ a.allowance.toNat ≤ 120 := by
    simp only [writtenEntry]; omega
  simp only [this]; rfl

theorem ownCalWrite_atOnce {l : Link} {a : CalWriteArgs} {i : Fin 24} {p : Phase} (s : State)
    (hi : a.index.toNat = i.val) (hp : a.phase = some p) (hs : a.start.toNat ≤ 1439) (hm : a.mode = some .atOnce) :
    ownCalWrite l a s =
      { state := s.setCalendar { s.calendar with
          entries := s.calendar.entries.set i (writtenEntry a p)
          staging := s.calendar.staging.filter fun x => x.edit.key ≠ .entry i }
        reply := calWriteReply a i (writtenEntry a p) } := by
  have hf : (s.calendar.staging.filter fun x => x.edit.key != .entry i)
      = s.calendar.staging.filter fun x => x.edit.key ≠ .entry i :=
    List.filter_congr fun x _ => by rw [bne, beq_eq_decide, decide_not]
  unfold ownCalWrite
  simp only [row_of_val hi, hp, hm]
  rw [if_neg (show ¬ Config.dayMinutes ≤ a.start.toNat by simp only [Config.dayMinutes]; omega), calWriteReply_eq, ← hf]
  rfl

theorem ownCalWrite_staged {l : Link} {a : CalWriteArgs} {i : Fin 24} {p : Phase} (s : State)
    (hi : a.index.toNat = i.val) (hp : a.phase = some p) (hs : a.start.toNat ≤ 1439) (hm : a.mode = some .staged) :
    ownCalWrite l a s = s.stageEdit (.entry i (writtenEntry a p)) l (calWriteReply a i (writtenEntry a p)) := by
  unfold ownCalWrite
  simp only [row_of_val hi, hp, hm]
  rw [if_neg (show ¬ Config.dayMinutes ≤ a.start.toNat by simp only [Config.dayMinutes]; omega), calWriteReply_eq]

theorem ownCalWrite_range {l : Link} {a : CalWriteArgs} (s : State)
    (h : 23 < a.index.toNat ∨ a.phase = none ∨ 1439 < a.start.toNat ∨ a.mode = none) :
    ownCalWrite l a s = .turnedAway s .range := by
  unfold ownCalWrite
  split
  · rename_i i p m hi hp hm
    have hs : Config.dayMinutes ≤ a.start.toNat := by
      rcases h with h | h | h | h
      · cases (row_outside (n := 24) h).symm.trans hi
      · cases h.symm.trans hp
      · exact h
      · cases h.symm.trans hm
    rw [if_pos hs]
  · rfl

/-- A staged write that reaches its block: the list takes it, or it is answered FULL (R32). -/
theorem State.runCall_stages {own : α → State → Taken} {a : α} {r : Reply} {e : Edit} {l : Link} (h : s.Admits k o)
    (he : own a (s.setReceiver o.link .hunting) = (s.setReceiver o.link .hunting).stageEdit e l r) :
    s.runCall k o (some a) own = .next (match s.calendar.stage e l with
      | some c => State.answered { s with calendar := c } k o r
      | none => s.answered k o ⟨.full, .bare⟩) := by
  unfold State.stageEdit at he
  rw [setReceiver_calendar] at he
  cases hc : s.calendar.stage e l with
  | none => rw [hc] at he; exact State.runCall_turnedAway h he
  | some c => rw [hc] at he; exact State.runCall_answers h { s with calendar := c } he

theorem calWrite_spec : Claims.CalWrite := by
  refine ⟨fun s o a i p e r h hi hp hs he hr => ?_, fun s o a h hx => ?_⟩
  · have hr' : r = calWriteReply a i (writtenEntry a p) := hr.trans (by rw [he]; rfl)
    subst hr'
    have he' : e = writtenEntry a p := he
    subst he'
    exact ⟨fun hm => State.runCall_answers h
        { s with calendar := { s.calendar with
            entries := s.calendar.entries.set i (writtenEntry a p)
            staging := s.calendar.staging.filter fun x => x.edit.key ≠ .entry i } }
        (ownCalWrite_atOnce _ hi hp hs hm),
      fun hm => State.runCall_stages h (ownCalWrite_staged _ hi hp hs hm)⟩
  · exact State.runCall_turnedAway h (ownCalWrite_range _ hx)

/-! ### The reads of the calendar and the staging list (R7, R35, R36) -/

/-- The whole edits that fit begin the list, fit together, and no longer beginning fits (R35). -/
theorem fitEdits_spec (l : List (Nat × StagedEdit)) (left : Nat) :
    fitEdits left l <+: l ∧ ((fitEdits left l).map fun x => (Wire.stagedEdit x).length).sum ≤ left
    ∧ ∀ more, more <+: l → (more.map fun x => (Wire.stagedEdit x).length).sum ≤ left →
        more.length ≤ (fitEdits left l).length := by
  induction l generalizing left with
  | nil => exact ⟨⟨[], rfl⟩, Nat.zero_le _, fun more hm _ => by
      simp [List.length_eq_zero_iff.mp (Nat.le_zero.mp hm.length_le)]⟩
  | cons x rest ih =>
    unfold fitEdits
    split
    · rename_i hx
      obtain ⟨hp, hs, hmax⟩ := ih (left - (Wire.stagedEdit x).length)
      refine ⟨List.cons_prefix_cons.mpr ⟨rfl, hp⟩, ?_, fun more hm hf => ?_⟩
      · simp only [List.map_cons, List.sum_cons]; omega
      · cases more with
        | nil => exact Nat.zero_le _
        | cons y ys =>
          obtain ⟨rfl, hys⟩ := List.cons_prefix_cons.mp hm
          simp only [List.map_cons, List.sum_cons] at hf
          exact Nat.succ_le_succ (hmax ys hys (by omega))
    · rename_i hx
      refine ⟨List.nil_prefix, Nat.zero_le _, fun more hm hf => ?_⟩
      cases more with
      | nil => exact Nat.zero_le _
      | cons y ys =>
        obtain ⟨rfl, -⟩ := List.cons_prefix_cons.mp hm
        simp only [List.map_cons, List.sum_cons] at hf
        omega

theorem calReadAndStagingReads_spec : Claims.CalReadAndStagingReads := by
  refine ⟨fun s o a i h hi => ?_, fun s o a h hi => ?_, fun s o a h => ?_, fun s o h => ?_⟩
  · refine State.runCall_answers h s ?_
    unfold ownCalRead
    rw [row_of_val hi]; rfl
  · refine State.runCall_turnedAway h ?_
    unfold ownCalRead
    rw [row_outside (n := 24) hi]
  · obtain ⟨hp, hs, hmax⟩ := fitEdits_spec
      (((List.range s.calendar.staging.length).zip s.calendar.staging).drop a.index.toNat) 245
    exact ⟨_, State.runCall_answers h s rfl, hp, hs, hmax⟩
  · exact State.runCall_answers h { s with calendar := { s.calendar with staging := [] } } rfl

/-- Settles O18. -/
theorem calendarCalls : Obligations.CalendarCalls := ⟨calWrite_spec, calReadAndStagingReads_spec⟩

/-! ### CAL_SETTINGS, PHASE_READ and the reads of the tables (R10, R15, R19, R39) -/

theorem calSettings_spec : Claims.CalSettings := by
  refine ⟨fun s o a p rate h hp hrate => ?_, fun s o a h hn => ?_⟩
  · refine State.runCall_answers h { s with calendar := { s.calendar with noClock := p, leadRate := rate } } ?_
    have hr : rate = (a.leadRate.map BitVec.toNat).getD s.calendar.leadRate := by
      rw [hrate]; cases a.leadRate <;> rfl
    unfold ownCalSettings
    rcases hp with hn | ⟨hn, hp⟩
    · simp only [hn, hr]; rfl
    · simp only [hn, hr, hp]; rfl
  · refine State.runCall_turnedAway h ?_
    unfold ownCalSettings
    rw [hn]

/-- The override's end as reported (R15). -/
theorem State.overrideEndTime_eq (s : State) (v : Option Override) :
    s.overrideEndTime v = (match v with
      | some ⟨some n⟩ => some ((s.clock.weekSecond + n) % 604800)
      | _ => none) := by
  rcases v with _ | ⟨_ | n⟩ <;> rfl

theorem phaseRead_spec : Claims.PhaseRead := by
  intro s o h
  exact State.runCall_answers h s (congrArg
    (fun e => ({ state := s.setReceiver o.link .hunting
                 reply := ⟨.ok, .phase ⟨s.calendar.record.phase, s.calendar.record.source, s.calendar.record.entered, e,
                   s.scheduled⟩ s.clock.running⟩ } : Taken))
    (s.overrideEndTime_eq s.calendar.record.override))

theorem tableReads_spec : Claims.TableReads := by
  refine ⟨fun s o a h => ?_, fun s o a p g h hp hg => ?_, fun s o a h hx => ?_⟩
  · refine State.runCall_answers h s ?_
    unfold ownPhaseTableRead
    cases a.phase <;> rfl
  · refine State.runCall_answers h s ?_
    unfold ownSceneRead
    rw [hp, row_of_val hg]; rfl
  · refine State.runCall_turnedAway h ?_
    unfold ownSceneRead
    rcases hx with hp | hg
    · rw [hp]
    · rw [row_outside (n := 24) hg]; cases a.phase <;> rfl

/-- Settles O19. -/
theorem settingsAndTableReads : Obligations.SettingsAndTableReads := ⟨calSettings_spec, phaseRead_spec, tableReads_spec⟩

/-! ### PHASE_FORCE, PHASE_EXTEND and the end of an override (R15 to R18) -/

/-- A call that makes a transition: its steps 2 to 4, the answer, then its step 5 (assumption 6). -/
theorem State.runCall_transition {own : α → State → Taken} {a : α} {p : Phase} {src : Source} {v : Option Override}
    {r : Reply} (h : s.Admits k o)
    (e : own a (s.setReceiver o.link .hunting) = (s.setReceiver o.link .hunting).callTransition p src v r) :
    s.runCall k o (some a) own = .next ((((s.unanswered o).enter p src v).answer k o r).handOn s.phase false) := by
  rw [State.runCall_taken h, e]; rfl

theorem okOrClamped_eq (m n : Nat) : okOrClamped (m != n) = if m = n then .ok else .clamped := by
  by_cases h : m = n <;> simp [okOrClamped, h]

theorem phaseForce_spec : Claims.PhaseForce := by
  refine ⟨fun s o a p m v r h hp hm hv hr => ?_, fun s o a h hn => ?_⟩
  · have hv' : v = ⟨secondsOf m⟩ := hv
    have hr' : r = ⟨okOrClamped (m != a.minutes.toNat), .overrideEnd (s.overrideEndTime (some v))⟩ := by
      have hm' : (m = a.minutes.toNat) ↔ a.minutes.toNat ≤ 1440 := by omega
      rw [hr, okOrClamped_eq, hv, State.overrideEndTime_eq]
      simp only [hm']
      split_ifs <;> rfl
    have own : ownPhaseForce a (s.setReceiver o.link .hunting)
        = if s.calendar.record.source = .forced ∧ s.phase = p
          then { state := (s.setReceiver o.link .hunting).setOverride (some v), reply := r }
          else (s.setReceiver o.link .hunting).callTransition p .forced (some v) r := by
      unfold ownPhaseForce
      rw [hp, hr', hv', hm]
      rfl
    by_cases hc : s.calendar.record.source = .forced ∧ s.phase = p
    · rw [if_pos hc] at own
      rw [if_pos (show s.calendar.record.source = .forced ∧ s.calendar.record.phase = p from hc)]
      exact State.runCall_answers h
        { s with calendar := { s.calendar with record := { s.calendar.record with override := some v } } } own
    · rw [if_neg hc] at own
      rw [if_neg (show ¬ (s.calendar.record.source = .forced ∧ s.calendar.record.phase = p) from hc)]
      exact State.runCall_transition h own
  · refine State.runCall_turnedAway h ?_
    unfold ownPhaseForce
    rw [hn]

theorem busyClass_false {p : Phase} : busyClass p = false ↔ p ≠ .work ∧ p ≠ .changeover := by cases p <;> decide

/-- PHASE_EXTEND in its block, in the order of R17's table. -/
theorem ownPhaseExtend_eq (a : PhaseExtendArgs) (s : State) (m : Nat) (st : Status)
    (hm : m = max 15 (min 120 a.minutes.toNat)) (hst : st = if m = a.minutes.toNat then .ok else .clamped) :
    ownPhaseExtend a s =
      if s.calendar.record.source = .forced then .turnedAway s .overridden
      else if s.calendar.record.phase ≠ .work ∧ s.calendar.record.phase ≠ .changeover then .turnedAway s .wrongPhase
      else if s.calendar.record.source = .extended then
        let n := min 14400 (((s.calendar.record.override.bind Override.remaining).getD 0) + 60 * m)
        { state := s.setOverride (some ⟨some n⟩), reply := ⟨st, .extendedEnd ((s.clock.weekSecond + n) % 604800)⟩ }
      else s.callTransition s.phase .extended (some ⟨some (60 * m)⟩)
        ⟨st, .extendedEnd ((s.clock.weekSecond + 60 * m) % 604800)⟩ := by
  have hm' : clampNat 15 120 a.minutes.toNat = m := hm.symm
  unfold ownPhaseExtend
  simp only [hm', okOrClamped_eq, ← hst, busyClass_false]
  rfl

theorem phaseExtend_spec : Claims.PhaseExtend := by
  intro s o a m h hm
  dsimp only
  generalize hst : (if m = a.minutes.toNat then Status.ok else .clamped) = st
  have own := ownPhaseExtend_eq a (s.setReceiver o.link .hunting) m st hm hst.symm
  by_cases forced : s.calendar.record.source = .forced
  · rw [if_pos forced]
    exact State.runCall_turnedAway h (own.trans (if_pos forced))
  replace own := own.trans (if_neg forced)
  rw [if_neg forced]
  by_cases quiet : s.calendar.record.phase ≠ .work ∧ s.calendar.record.phase ≠ .changeover
  · rw [if_pos quiet]
    exact State.runCall_turnedAway h (own.trans (if_pos quiet))
  replace own := own.trans (if_neg quiet)
  rw [if_neg quiet]
  by_cases running : s.calendar.record.source = .extended
  · rw [if_pos running]
    exact State.runCall_answers h
      { s with calendar := { s.calendar with record := { s.calendar.record with
          override := some ⟨some (min 14400
            (((s.calendar.record.override.bind Override.remaining).getD 0) + 60 * m))⟩ } } }
      (own.trans (if_pos running))
  · rw [if_neg running]
    exact State.runCall_transition h (own.trans (if_neg running))

/-- Settles O20. -/
theorem phaseForceAndExtend : Obligations.PhaseForceAndExtend := ⟨phaseForce_spec, phaseExtend_spec⟩

/-- Where the end of an override leads, as R18 has it. -/
theorem State.afterOverride_eq (s : State) : s.afterOverride = if s.clock.running then
      (lookup s.calendar.entries s.calendar.noClock (s.clock.weekSecond / 60), Source.calendar)
    else (s.calendar.noClock, .noClock) := by
  unfold State.afterOverride State.scheduled
  split <;> rfl

theorem State.overrideSecond_ends {n : Nat} (h : s.calendar.record.override = some ⟨some n⟩) (hn : n ≤ 1) :
    s.overrideSecond = s.endOverride := by
  unfold State.overrideSecond
  rw [h]
  exact if_pos hn

theorem State.overrideEnding_iff (s : State) :
    s.overrideEnding = true ↔ ∃ n, s.calendar.record.override = some ⟨some n⟩ ∧ n ≤ 1 := by
  unfold State.overrideEnding
  rcases s.calendar.record.override with _ | ⟨_ | n⟩ <;> simp

/-- An owed second boundary whose event is due, taken by its row. -/
theorem State.takeNamed_due {x : SecondOf} (ho : x ∈ s.owed) :
    s.takeNamed x true = State.secondFor { s with owed := s.owed.erase x } x := by
  unfold State.takeNamed
  rw [if_pos (by simp [ho])]
  rfl

/-- Settles O21. -/
theorem overrideEnds : Obligations.OverrideEnds := by
  intro s p src hps
  rw [← State.afterOverride_eq] at hps
  obtain ⟨hp, hsrc⟩ := Prod.mk.injEq _ _ _ _ ▸ hps
  refine ⟨fun o h => ⟨fun hov => ?_, fun hf hx => ?_⟩, fun n hpow ho hn hle => ?_⟩
  · have hov' : s.calendar.record.overridden = true := (PhaseRecord.overridden_iff _).mpr hov
    rw [hp, hsrc]
    exact State.runCall_transition h (if_pos hov')
  · have hov' : ¬ s.calendar.record.overridden = true := fun x => ((PhaseRecord.overridden_iff _).mp x).elim hf hx
    exact State.runCall_answers h s (if_neg hov')
  · have ending : s.overrideEnding = true := s.overrideEnding_iff.mpr ⟨n, hn, hle⟩
    refine (State.run_running hpow _).trans ?_
    rw [ending, State.takeNamed_due ho]
    refine congrArg _ ((State.overrideSecond_ends (s := { s with owed := s.owed.erase .override }) hn hle).trans ?_)
    rw [hp, hsrc]
    rfl

end Sys2Proof.Machine
end

section
/-! SUPPORT. The searches of the Shift Calendar: the winning entry of a minute, the lookup back through the week, and the
preheat lead (R5, R11, R21, R22). -/

namespace Sys2Proof.Machine

variable {entries : Table 24 CalEntry}

/-! ### The winning entry (R5) -/

theorem CalEntry.matchesMinute_iff (e : CalEntry) (minute : Nat) : e.matchesMinute minute = true ↔
    e.enabled = true ∧ e.days.getLsbD (minute / 1440) = true ∧ e.start = minute % 1440 := by
  simp [CalEntry.matchesMinute, Config.dayMinutes, and_assoc]

theorem winner_eq_some {minute : Nat} {i : Fin 24} (hi : (entries.get i).matchesMinute minute = true)
    (lowest : ∀ j : Fin 24, j < i → ¬ (entries.get j).matchesMinute minute = true) :
    winner entries minute = some (entries.get i) := by
  refine List.find?_eq_some_iff_getElem.mpr ⟨hi, i.val, i.isLt.trans_eq entries.size.symm, rfl, fun j hj => ?_⟩
  have := lowest ⟨j, hj.trans i.isLt⟩ hj
  rw [Table.get_eq] at this
  simpa using this

theorem winner_eq_none {minute : Nat} (none : ∀ j : Fin 24, ¬ (entries.get j).matchesMinute minute = true) :
    winner entries minute = .none := by
  refine List.find?_eq_none.mpr fun e he => ?_
  obtain ⟨j, hj, rfl⟩ := List.getElem_of_mem he
  exact none ⟨j, entries.size ▸ hj⟩

theorem lowestMatchingEntryWins_spec : Claims.LowestMatchingEntryWins := by
  intro entries minute _
  refine ⟨fun i he hd hs lowest => ?_, fun none => winner_eq_none fun j => ?_⟩
  · refine winner_eq_some ((CalEntry.matchesMinute_iff _ _).mpr ⟨he, hd, hs⟩) fun j hj => ?_
    rw [CalEntry.matchesMinute_iff]; exact lowest j hj
  · rw [CalEntry.matchesMinute_iff]; exact none j

/-! ### The lookup (R11) -/

/-- An entry that wins a minute is enabled on some day. -/
theorem anyLive_of_winner {minute : Nat} {e : CalEntry} (h : winner entries minute = some e) : anyLive entries = true := by
  have he := (CalEntry.matchesMinute_iff e minute).mp (List.find?_some (p := fun e : CalEntry => e.matchesMinute minute) h)
  refine List.any_eq_true.mpr ⟨e, List.mem_of_find?_eq_some h, Bool.and_eq_true_iff.mpr ⟨he.1, bne_iff_ne.mpr ?_⟩⟩
  intro never
  simp [never] at he

/-- The minute of week `j` minutes back. -/
def minuteBack (minute j : Nat) : Nat := (minute + 10080 - j) % 10080

theorem previousMinute_lt {minute : Nat} (h : minute < 10080) : previousMinute minute < 10080 := by
  unfold previousMinute Config.weekMinutes; split <;> omega

theorem minuteBack_previous {minute j : Nat} (h : minute < 10080) (hj : j < 10080) :
    minuteBack (previousMinute minute) j = minuteBack minute (j + 1) := by
  unfold minuteBack previousMinute Config.weekMinutes; split <;> omega

theorem minuteBack_zero {minute : Nat} (h : minute < 10080) : minuteBack minute 0 = minute := by
  unfold minuteBack; omega

theorem lookBack_nearest {e : CalEntry} (n k minute : Nat) (hm : minute < 10080) (hn : n ≤ 10080) (hk : k < n)
    (before : ∀ j, j < k → winner entries (minuteBack minute j) = none)
    (at_ : winner entries (minuteBack minute k) = some e) : lookBack entries n minute = some e := by
  induction n generalizing k minute with
  | zero => exact absurd hk (Nat.not_lt_zero k)
  | succ n ih =>
    unfold lookBack
    cases k with
    | zero => rw [minuteBack_zero hm] at at_; rw [at_]
    | succ k =>
      have now := before 0 (Nat.succ_pos k)
      rw [minuteBack_zero hm] at now
      rw [now]
      refine ih k (previousMinute minute) (previousMinute_lt hm) (by omega) (by omega) (fun j hj => ?_) ?_
      · rw [minuteBack_previous hm (by omega)]; exact before (j + 1) (by omega)
      · rw [minuteBack_previous hm (by omega)]; exact at_

theorem lookBack_none (n minute : Nat) (hm : minute < 10080) (none : ∀ m, m < 10080 → winner entries m = .none) :
    lookBack entries n minute = .none := by
  induction n generalizing minute with
  | zero => rfl
  | succ n ih =>
    unfold lookBack
    rw [none minute hm]
    exact ih _ (previousMinute_lt hm)

theorem lookupFindsNearestMatch_spec : Claims.LookupFindsNearestMatch := by
  intro entries noClock minute hm
  refine ⟨fun k e hk before at_ => ?_, fun none => ?_⟩
  · unfold lookup
    rw [if_pos (anyLive_of_winner at_),
      lookBack_nearest Config.weekMinutes k minute hm (Nat.le_refl _) hk before at_]
  · unfold lookup
    rw [lookBack_none Config.weekMinutes minute hm none]
    exact ite_self _

/-! ### The preheat lead (R21, R22) -/

theorem targetAt_some {minute : Nat} {e : CalEntry} (h : winner entries minute = some e) (hp : e.phase = .work)
    (ha : e.allowance ≠ 0) : targetAt entries minute = some e.allowance := by
  unfold targetAt
  rw [h]
  exact if_pos ⟨hp, ha⟩

theorem targetAt_none {minute : Nat}
    (h : ∀ x, winner entries minute = some x → x.phase ≠ .work ∨ x.allowance = 0) : targetAt entries minute = none := by
  unfold targetAt
  split
  · rename_i e he
    exact if_neg fun ⟨hp, ha⟩ => (h e he).elim (· hp) ha
  · rfl

/-- The first number of a range for which a search finds something. -/
theorem findSome_range {β : Type} {f : Nat → Option β} {b : β} {k n : Nat} (hk : k < n) (at_ : f k = some b)
    (before : ∀ j, j < k → f j = none) : (List.range n).findSome? f = some b := by
  refine List.findSome?_eq_some_iff.mpr
    ⟨List.range k, k, (List.range (n - (k + 1))).map (k + 1 + ·), ?_, at_, fun j hj => before j (List.mem_range.mp hj)⟩
  obtain ⟨r, rfl⟩ := Nat.exists_eq_add_of_lt hk
  rw [show k + r + 1 - (k + 1) = r by omega, show k + r + 1 = (k + 1) + r by omega, List.range_add, List.range_succ,
    List.append_assoc]
  rfl

theorem leadTarget_first {minute d : Nat} {e : CalEntry} (h1 : 1 ≤ d) (h120 : d ≤ 120)
    (hw : winner entries ((minute + d) % 10080) = some e) (hp : e.phase = .work) (ha : e.allowance ≠ 0)
    (before : ∀ j x, 1 ≤ j → j < d → winner entries ((minute + j) % 10080) = some x → x.phase ≠ .work ∨ x.allowance = 0) :
    leadTarget entries minute = some (d, e.allowance) := by
  obtain ⟨k, rfl⟩ : ∃ k, d = k + 1 := ⟨d - 1, by omega⟩
  refine findSome_range (k := k) (by omega) ?_ fun j hj => ?_
  · exact congrArg (Option.map _) (targetAt_some hw hp ha)
  · exact congrArg (Option.map _) (targetAt_none fun x hx => before (j + 1) x (by omega) (by omega) hx)

/-- The target lies ahead. -/
theorem leadTarget_ahead {minute d a : Nat} (h : leadTarget entries minute = some (d, a)) : 1 ≤ d := by
  obtain ⟨k, -, hk⟩ := List.exists_of_findSome?_eq_some h
  cases ht : targetAt entries ((minute + (k + 1)) % Config.weekMinutes) with
  | none => rw [ht] at hk; cases hk
  | some b => rw [ht] at hk; cases hk; omega

theorem leadHolds_of_target {minute d a : Nat} (h : leadTarget entries minute = some (d, a)) (deficit rate : Nat) :
    leadHolds entries minute deficit rate = decide (d ≤ requiredLead a deficit rate) := by
  unfold leadHolds; rw [h]

theorem leadHolds_of_no_target {minute : Nat} (h : leadTarget entries minute = none) (deficit rate : Nat) :
    leadHolds entries minute deficit rate = false := by
  unfold leadHolds; rw [h]

/-- R22's ceiling: `d` minutes are within it exactly when `d - 1` whole minutes fall short of the product. -/
theorem le_requiredLead {d a deficit rate : Nat} (h1 : 1 ≤ d) :
    d ≤ requiredLead a deficit rate ↔ d ≤ a ∧ 64 * (d - 1) < deficit * rate := by
  unfold requiredLead ceilDiv'
  generalize deficit * rate = x
  omega

theorem leadHoldsByRequiredLead_spec : Claims.LeadHoldsByRequiredLead := by
  refine ⟨fun entries minute deficit rate d e h1 h120 hw hp ha before => ?_, fun entries minute deficit rate none => ?_,
    fun entries minute deficit rate zero => ?_⟩
  · rw [leadHolds_of_target (leadTarget_first h1 h120 hw hp ha before), decide_eq_true_iff]
    exact le_requiredLead h1
  · refine leadHolds_of_no_target (List.findSome?_eq_none_iff.mpr fun k hk => ?_) _ _
    have hk := List.mem_range.mp hk
    exact congrArg (Option.map _) (targetAt_none fun x hx => none (k + 1) x (by omega) (by omega) hx)
  · cases h : leadTarget entries minute with
    | none => exact leadHolds_of_no_target h _ _
    | some x =>
      have h1 := leadTarget_ahead h
      have hx : deficit * rate = 0 := by rcases zero with rfl | rfl <;> simp
      rw [leadHolds_of_target h, decide_eq_false_iff_not, le_requiredLead h1, hx]
      omega

/-- Settles O15. -/
theorem calendarSearches : Obligations.CalendarSearches :=
  ⟨lookupFindsNearestMatch_spec, lowestMatchingEntryWins_spec, leadHoldsByRequiredLead_spec⟩

end Sys2Proof.Machine
end

section
/-! SUPPORT. What the shared operations say on the links: a pass and the exchange that follows it raise OVERCAP alone, a control
cycle raises its own flags, and nothing of a transition's step 5 reaches the panel or takes a frame back (R116, R124, R158,
R163, R166). -/

namespace Sys2Proof.Machine

variable {s t u : State}

/-! ### An exchange keeps what its two steps keep -/

theorem State.takeGrants_keeps (R : State → State → Prop) (refl : ∀ s, R s s) (trans : ∀ {a b c}, R a b → R b c → R a c)
    (grant : ∀ s g, R s (s.setGroup g
      (((s.lighting.groups.get g).takeGrant (s.budget.groups.get g).level).requesting (s.scene g))))
    (s before : State) : R s (s.takeGrants before).1 :=
  State.groupsDo_keeps R refl trans (fun s g x => x.takeGrant (s.budget.groups.get g).level) grant _ s

theorem State.exchange_keeps (R : State → State → Prop) (refl : ∀ s, R s s) (trans : ∀ {a b c}, R a b → R b c → R a c)
    (request : ∀ s q, R s (State.lightRequest s q))
    (grant : ∀ s g, R s (s.setGroup g
      (((s.lighting.groups.get g).takeGrant (s.budget.groups.get g).level).requesting (s.scene g))))
    (n : Nat) (s : State) (qs : List LightRequest) : R s (s.exchange n qs) := by
  have serve (h : Handed) (q : LightRequest) : R h.1 (h.serve q).1 :=
    trans (request h.1 q) (State.takeGrants_keeps R refl trans grant _ _)
  have serves (qs : List LightRequest) : ∀ h : Handed, R h.1 (qs.foldl Handed.serve h).1 := by
    induction qs with
    | nil => exact fun h => refl h.1
    | cons q qs ih => exact fun h => trans (serve h q) (ih (h.serve q))
  induction n generalizing s qs with
  | zero => exact refl s
  | succ n ih =>
    unfold State.exchange
    split
    · exact refl s
    · exact trans (serves qs (s, [])) (ih _ _)

/-! ### At most one flag raised -/

theorem LinkInterface.raise_set {i : LinkInterface} {f : Flag} (h : i.isSet f = true) : i.raise f = i := if_pos h

theorem LinkInterface.raise_raise (i : LinkInterface) (f : Flag) : (i.raise f).raise f = i.raise f :=
  LinkInterface.raise_set (by simp [LinkInterface.isSet_raise])

/-- The links stand, or took one set event of the flag `f`. -/
def State.MayRaise (f : Flag) (s t : State) : Prop := t.links = s.links ∨ t.links = s.links.raise f

theorem State.MayRaise.refl (f : Flag) (s : State) : State.MayRaise f s s := .inl rfl

theorem State.MayRaise.trans {f : Flag} (h : State.MayRaise f s t) (k : State.MayRaise f t u) : State.MayRaise f s u := by
  rcases h with h | h <;> rcases k with k | k <;> unfold State.MayRaise <;> rw [k, h]
  · exact .inl rfl
  · exact .inr rfl
  · exact .inr rfl
  · exact .inr (LinkInterface.raise_raise _ _)

theorem State.mayRaise_raiseIf (s : State) (c : Bool) (f : Flag) : State.MayRaise f s (s.raiseIf c f) := by
  cases c
  · exact .inl rfl
  · exact .inr rfl

/-! ### The allocator's services -/

theorem State.links_foldl {β : Type} (f : State → β → State) (h : ∀ s b, (f s b).links = s.links) (l : List β) (s : State) :
    (l.foldl f s).links = s.links := by
  induction l generalizing s with
  | nil => rfl
  | cons b l ih => exact (ih (f s b)).trans (h s b)

theorem State.links_forEach {n : Nat} {f : Fin n → State → State} (h : ∀ i s, (f i s).links = s.links) (s : State) :
    (s.forEach n f).links = s.links := State.links_foldl _ (fun s i => h i s) _ s

@[simp] theorem State.tryCurtain_links (s : State) (c : Fin 16) : (s.tryCurtain c).links = s.links := by
  unfold State.tryCurtain; dsimp only; split <;> rfl

@[simp] theorem State.retryCurtains_links (s : State) : s.retryCurtains.links = s.links := by
  unfold State.retryCurtains
  rw [followGrants_links, State.links_forEach fun c s => s.tryCurtain_links c]

@[simp] theorem State.handCurtain_links (s : State) (c : Fin 16) (h : CurtainHand) : (s.handCurtain c h).links = s.links := by
  cases h with
  | nothing => rfl
  | demand => exact s.tryCurtain_links c
  | release =>
    show (s.curtainRelease c).links = s.links
    unfold State.curtainRelease; dsimp only; split
    · exact State.retryCurtains_links _
    · rfl

@[simp] theorem State.reevaluate_links (s : State) (c : Fin 16) : (s.reevaluate c).links = s.links :=
  State.handCurtain_links _ c _

@[simp] theorem State.doorMode_links (s : State) (z : Fin 8) : (s.doorMode z).links = s.links := by
  have curtain (c : Fin 16) (s : State) :
      (if (s.doors.curtains.get c).config.zone = z then s.reevaluate c else s).links = s.links := by
    split
    · exact s.reevaluate_links c
    · rfl
  unfold State.doorMode; dsimp only
  rw [State.links_forEach curtain]
  split <;> rfl

@[simp] theorem State.zoneOff_links (s : State) (z : Fin 8) : (s.zoneOff z).links = s.links := by
  unfold State.zoneOff; dsimp only; split
  · rfl
  · exact State.retryCurtains_links _

@[simp] theorem State.modeEvent_links (s : State) (z : Fin 8) : (s.modeEvent z).links = s.links := by
  unfold State.modeEvent; dsimp only; split
  · exact (State.zoneOff_links _ z).trans (s.doorMode_links z)
  · exact s.doorMode_links z

/-! ### A pass and its exchange raise OVERCAP alone -/

theorem State.pass_raises (s : State) : State.MayRaise .overcap s s.pass := by
  unfold State.pass State.MayRaise; dsimp only
  rw [followGrants_links]
  split
  · exact .inr rfl
  · exact .inl rfl

/-- A lighting request is its steps 1 to 4, the set event, the pass and the retrying of R124, where they are due. -/
theorem State.lightRequest_keeps (R : State → State → Prop) (refl : ∀ s, R s s) (trans : ∀ {a b c}, R a b → R b c → R a c)
    (apply : ∀ s q, R s (State.applyRequest s q)) (raise : ∀ s c, R s (State.raiseIf s c .overcap))
    (pass : ∀ s, R s (State.pass s)) (retry : ∀ s, R s (State.retryCurtains s)) (s : State) (q : LightRequest) :
    R s (s.lightRequest q) := by
  have after (t : State) (lowered : Prop) [Decidable lowered] :
      R t (if lowered then (if t.budget.overdrawn then t.pass else t).retryCurtains
        else if t.budget.overdrawn then t.pass else t) := by
    have passed : R t (if t.budget.overdrawn then t.pass else t) := by
      split
      · exact pass t
      · exact refl t
    split
    · exact trans passed (retry _)
    · exact passed
  exact trans (trans (apply s q) (raise _ _)) (after _ _)

theorem State.lightRequest_raises (s : State) (q : LightRequest) : State.MayRaise .overcap s (s.lightRequest q) :=
  State.lightRequest_keeps (State.MayRaise .overcap) (.refl _) .trans (fun _ _ => .inl rfl)
    (fun s c => s.mayRaise_raiseIf c _) State.pass_raises (fun s => .inl s.retryCurtains_links) s q

theorem State.exchange_raises (n : Nat) (s : State) (qs : List LightRequest) : State.MayRaise .overcap s (s.exchange n qs) :=
  State.exchange_keeps (State.MayRaise .overcap) (.refl _) .trans State.lightRequest_raises (fun _ _ => .inl rfl) n s qs

theorem State.groupsDo_links (s : State) (gs : List (Fin 24)) (f : State → Fin 24 → Group → Group) :
    (s.groupsDo gs f).1.links = s.links :=
  State.groupsDo_keeps (fun s t => t.links = s.links) (fun _ => rfl) (fun h k => k.trans h) f (fun _ _ => rfl) gs s

theorem State.lightEvent_raises (s : State) (gs : List (Fin 24)) (f : State → Fin 24 → Group → Group) :
    State.MayRaise .overcap s (s.groupsDo gs f).settle :=
  .trans (.inl (s.groupsDo_links gs f)) (State.exchange_raises _ _ _)

theorem State.passAndHand_raises (s : State) : State.MayRaise .overcap s s.passAndHand :=
  s.pass_raises.trans (State.lightEvent_raises _ _ _)

theorem State.passIfCapChanged_raises (s before : State) : State.MayRaise .overcap s (s.passIfCapChanged before) := by
  unfold State.passIfCapChanged; split
  · exact .refl _ s
  · exact s.passAndHand_raises

/-! ### What reaches the links: nothing on the panel, and no frame taken back -/

/-- The panel link stands, and the supervisor link's queue grows at its end alone. -/
structure LinkInterface.Speaks (a b : LinkInterface) : Prop where
  panel      : b.panel = a.panel
  supervisor : a.supervisor.queue <+: b.supervisor.queue

theorem LinkInterface.Speaks.refl (a : LinkInterface) : a.Speaks a := ⟨rfl, ⟨[], List.append_nil _⟩⟩

theorem LinkInterface.Speaks.trans {a b c : LinkInterface} (h : a.Speaks b) (k : b.Speaks c) : a.Speaks c :=
  ⟨k.panel.trans h.panel, h.supervisor.trans k.supervisor⟩

theorem LinkState.offer_extends (x : LinkState) (f : Frame) : x.queue <+: (x.offer f).queue := by
  rw [LinkState.offer_queue]; split
  · exact ⟨_, rfl⟩
  · exact ⟨[], List.append_nil _⟩

theorem LinkState.offerAll_extends (x : LinkState) (fs : List Frame) : x.queue <+: (x.offerAll fs).queue :=
  foldl_keeps (fun a b : LinkState => a.queue <+: b.queue) (fun _ => ⟨[], List.append_nil _⟩) (fun h k => h.trans k) _
    LinkState.offer_extends fs x

theorem LinkInterface.speaks_notify (i : LinkInterface) (n : Notice) : i.Speaks (i.notify .supervisor n) := by
  unfold LinkInterface.notify; split
  · exact .refl i
  · exact ⟨rfl, LinkState.offer_extends _ _⟩

theorem LinkInterface.speaks_raise (i : LinkInterface) (f : Flag) : i.Speaks (i.raise f) := by
  unfold LinkInterface.raise; dsimp only
  have set : i.Speaks { i with flags := i.flags ||| flagBit f } := ⟨rfl, ⟨[], List.append_nil _⟩⟩
  split
  · exact .refl i
  · split
    · exact set.trans (LinkInterface.speaks_notify _ _)
    · exact set

/-- The same of two states. -/
def State.Speaks (s t : State) : Prop := s.links.Speaks t.links

theorem State.Speaks.refl (s : State) : s.Speaks s := LinkInterface.Speaks.refl _

theorem State.Speaks.trans (h : s.Speaks t) (k : t.Speaks u) : s.Speaks u := LinkInterface.Speaks.trans h k

theorem State.Speaks.of_eq (h : t.links = s.links) : s.Speaks t := by
  unfold State.Speaks; rw [h]; exact .refl _

theorem State.speaks_raise (s : State) (f : Flag) : s.Speaks (s.raise f) := LinkInterface.speaks_raise _ f

theorem State.MayRaise.speaks {f : Flag} (h : State.MayRaise f s t) : s.Speaks t := by
  rcases h with h | h <;> unfold State.Speaks <;> rw [h]
  · exact .refl _
  · exact LinkInterface.speaks_raise _ f

theorem State.Speaks.forEach {n : Nat} {f : Fin n → State → State} (h : ∀ i s, State.Speaks s (f i s)) (s : State) :
    s.Speaks (s.forEach n f) :=
  foldl_keeps State.Speaks .refl .trans _ (fun s i => h i s) _ s

/-- A control cycle's set events (R85, R102, R116). -/
theorem State.cycle_speaks (s : State) : s.Speaks s.cycle := by
  have mode (z : Fin 8) (t : State) : t.Speaks (if t.zoneMode z = s.zoneMode z then t else t.modeEvent z) := by
    split
    · exact .refl t
    · exact .of_eq (t.modeEvent_links z)
  have degraded (z : Fin 8) (t : State) : t.Speaks (t.reportDegraded s z) := (t.mayRaise_raiseIf _ .zoneDegraded).speaks
  have deviation (t : State) : t.Speaks t.reportDeviation := (t.mayRaise_raiseIf _ .deviation).speaks
  have demand (t : State) (d : Table 8 ZoneDemand) : t.Speaks (t.takeDemand d) :=
    .trans (t := { t with budget := { t.budget with demand := some d } }) (.of_eq rfl) (State.passAndHand_raises _).speaks
  unfold State.cycle; dsimp only
  refine .trans (t := { s with climate := s.cycledClimate }) (.of_eq rfl) ?_
  refine .trans (.forEach degraded _) ?_
  refine .trans (deviation _) ?_
  exact .trans (.forEach mode _) (demand _ _)

theorem State.retarget_speaks (s : State) : s.Speaks s.retarget := (s.lightEvent_raises _ _).speaks

theorem State.offerBatches_speaks (fuel n : Nat) (s : State) : s.Speaks (State.offerBatches fuel n s) := by
  induction fuel generalizing s with
  | zero => exact .refl s
  | succ fuel ih =>
    unfold State.offerBatches; dsimp only
    split
    · refine .trans ?_ (ih _)
      exact ⟨rfl, LinkState.offerAll_extends _ _⟩
    · exact .refl s

theorem State.batchCheck_speaks (s : State) : s.Speaks s.batchCheck := by
  unfold State.batchCheck; split
  · exact State.offerBatches_speaks _ _ s
  · exact .refl s

theorem State.offerRecord_speaks (s : State) (r : DoorRecord) : s.Speaks (s.offerRecord r) := by
  unfold State.offerRecord
  refine .trans ?_ (State.batchCheck_speaks _)
  split
  · exact .of_eq rfl
  · exact s.speaks_raise _

theorem State.compareDoor_speaks (s : State) (d : Fin 32) : s.Speaks (s.compareDoor d) := by
  rw [State.compareDoor_eq]; split
  · refine .trans ?_ (State.speaks_raise _ _)
    refine .trans ?_ (State.offerRecord_speaks _ _)
    exact .of_eq rfl
  · exact .refl s

theorem State.zeroTallies_links (s : State) : s.zeroTallies.links = s.links := rfl

theorem State.doorTransition_speaks (s : State) (before : Phase) (mark : Bool) :
    s.Speaks (s.doorTransition before mark) := by
  have compared : s.Speaks s.compareDoors := .forEach (fun d s => s.compareDoor_speaks d) s
  generalize hw : (if mark then s.compareDoors.zeroTallies else s.compareDoors) = w
  have zeroed : s.Speaks w := compared.trans (.of_eq (by
    rw [← hw]; split
    · exact State.zeroTallies_links _
    · rfl))
  have e : s.doorTransition before mark
      = if busyClass before ∧ busyClass w.phase = false ∧ w.doors.quiet < w.doors.busy then w.batchCheck else w := by
    rw [← hw]; rfl
  rw [e]
  split
  · exact zeroed.trans w.batchCheck_speaks
  · exact zeroed

theorem State.takePhaseCap_raises (s : State) : State.MayRaise .overcap s s.takePhaseCap := by
  unfold State.takePhaseCap
  exact .trans (t := { s with budget := { s.budget with phaseCap := (s.paramsOf s.phase).cap } }) (.inl rfl)
    (State.passIfCapChanged_raises _ _)

end Sys2Proof.Machine
end

section
/-! SUPPORT. A transition, assembled from what it hands to each block (R9): the cycle and the retargeting, the Door Unit's part,
then the phase cap and the accounts. -/

namespace Sys2Proof.Machine

variable {s t u : State}

/-! ### The cycle and the lamp groups (R89, R145) -/

/-- The lamp groups replaced by others that keep what no recomputation writes, and the dimmers with them. -/
theorem State.cycleOnly_lamps (s : State) (x : Table 24 Group) (d : Table 24 Nat)
    (h : ∀ g, (s.lighting.groups.get g).Kept (x.get g)) :
    s.CycleOnly { s with lighting := { s.lighting with groups := x }, lines := { s.lines with dimmers := d } } := by
  have kept (g : Fin 24) : (x.get g).config = (s.lighting.groups.get g).config
      ∧ (x.get g).state = (s.lighting.groups.get g).state ∧ (x.get g).hold = (s.lighting.groups.get g).hold
      ∧ (x.get g).override = (s.lighting.groups.get g).override
      ∧ (x.get g).lastOccupancy = (s.lighting.groups.get g).lastOccupancy :=
    ⟨(h g).config, (h g).state, (h g).hold, (h g).override, (h g).occupancy⟩
  constructor <;> simp [LinkInterface.Grows.refl, kept]

theorem Group.requesting_kept (x : Group) (sc : Scene) : x.Kept (x.requesting sc) := ⟨rfl, rfl, rfl, rfl, rfl⟩

theorem Group.Kept.trans {x y z : Group} (h : x.Kept y) (k : y.Kept z) : x.Kept z :=
  ⟨k.config.trans h.config, k.state.trans h.state, k.hold.trans h.hold, k.override.trans h.override,
   k.occupancy.trans h.occupancy⟩

theorem Group.trimNow_congr {x y : Group} (hc : y.config = x.config) (hs : y.state = x.state) (sc : Scene) (d : Daylight) :
    y.trimNow sc d = x.trimNow sc d := by unfold Group.trimNow; rw [hc, hs]

theorem Group.desiredNow_congr {x y : Group} (hc : y.config = x.config) (hs : y.state = x.state)
    (ho : y.override = x.override) (sc : Scene) (d : Daylight) : y.desiredNow sc d = x.desiredNow sc d := by
  unfold Group.desiredNow; rw [Group.trimNow_congr hc hs, hs, ho]

/-- What a control cycle and the retargeting of the lamp groups after it leave. -/
structure State.Resettles (s t : State) : Prop where
  only   : s.CycleOnly t
  cycles : s.Cycles t
  trim   : ∀ g, (t.lighting.groups.get g).trim = (s.lighting.groups.get g).trimNow (s.scene g) s.lighting.taken
  level  : ∀ g, (t.lighting.groups.get g).desired = (s.lighting.groups.get g).desiredNow (s.scene g) s.lighting.taken

/-- A frame of grants keeps what a cycle settled. -/
theorem State.Cycles.grants {v : State} (h : s.Cycles t) (k : u.GrantsOnly v) (climate : u.climate = t.climate)
    (demand : u.budget.demand = t.budget.demand) (doors : u.doors = t.doors) : s.Cycles v := by
  have zones : ∀ z, v.zoneMode z = t.zoneMode z := fun z => by
    unfold State.zoneMode; rw [k.climate, climate]
  have stands (c : Fin 16) : v.curtainStands c = t.curtainStands c :=
    (k.stands c).trans (by unfold State.curtainStands; rw [doors])
  refine ⟨(k.climate.trans climate).trans h.climate, (k.demand.trans demand).trans h.demand, ?_, fun c hc => ?_⟩
  · simp only [zones]
    exact (k.windows.trans (congrArg Doors.forecasts doors)).trans h.forecasts
  · rw [zones] at hc
    exact (stands c).trans (h.curtains c hc)

theorem State.resettles (s : State) : s.Resettles s.cycle.retarget := by
  have cycled := s.cycleOnly_cycle
  have cycles := s.cycle_spec
  generalize s.cycle = a at cycled cycles
  have grants := a.retarget_spec
  generalize a.retarget = b at grants
  have lamps := a.cycleOnly_lamps
    (a.lighting.groups.mapIdx fun g x => (x.recompute (a.scene g) a.lighting.taken).requesting (a.scene g))
    (a.lines.dimmers.mapIdx fun g _ => ((a.lighting.groups.get g).recompute (a.scene g) a.lighting.taken).output)
    (fun g => by rw [Table.get_mapIdx]; exact (Group.recompute_kept _ _ _).trans (Group.requesting_kept _ _))
  have taken : a.lighting.taken = s.lighting.taken := cycled.light.2.2
  refine ⟨(cycled.trans lamps).trans grants.toCycleOnly, cycles.grants grants rfl rfl rfl, fun g => ?_, fun g => ?_⟩
  · obtain ⟨trim, -⟩ := grants.desired g
    obtain ⟨-, -, -, -, -, formed, -⟩ := (a.lighting.groups.get g).recompute_spec (a.scene g) a.lighting.taken
    obtain ⟨config, state, -⟩ := cycled.groups g
    dsimp only at trim
    rw [Table.get_mapIdx] at trim
    rw [trim, ← Group.trimNow_congr config state, ← taken, ← cycled.scene g]
    exact formed
  · obtain ⟨-, desired⟩ := grants.desired g
    obtain ⟨-, -, -, -, -, -, formed⟩ := (a.lighting.groups.get g).recompute_spec (a.scene g) a.lighting.taken
    obtain ⟨config, state, -, override, -⟩ := cycled.groups g
    dsimp only at desired
    rw [Table.get_mapIdx] at desired
    rw [desired, ← Group.desiredNow_congr config state override, ← taken, ← cycled.scene g]
    exact formed

/-! ### The phase cap and the accounts (R106, R109, R181) -/

/-- The phase cap of the phase in force, and with the mark a new summary (R106, R181). -/
def State.capAndAccounts (s : State) (mark : Bool) : State :=
  { s with
    budget := { s.budget with phaseCap := (s.paramsOf s.phase).cap }
    accounts := if mark then ⟨.begin s.calendar.record.entered true s.phase, some s.accounts.current⟩ else s.accounts }

/-- A frame of grants stands beside the same accounts in both states, and links that have grown. -/
theorem State.GrantsOnly.besideAccounts (h : s.GrantsOnly t) (x : Accounts) {y : LinkInterface} (hy : t.links.Grows y) :
    State.GrantsOnly { s with accounts := x } { t with accounts := x, links := y } where
  power      := h.power
  clock      := h.clock
  calendar   := h.calendar
  sensors    := h.sensors
  store      := h.store
  accounts   := rfl
  owed       := h.owed
  pending    := h.pending
  channels   := h.channels
  rings      := h.rings
  records    := h.records
  thresholds := h.thresholds
  forecasts  := h.forecasts
  curtains   := h.curtains
  boards     := h.boards
  lines      := h.lines
  latches    := fun l k => h.latches l (k.imp_right (State.functionOn_none _ _ _).mp)
  light      := h.light
  groups     := h.groups
  caps       := h.caps
  ratings    := h.ratings
  times      := h.times
  settings   := h.settings
  zones      := h.zones
  links      := h.links.trans hy
  climate    := h.climate
  demand     := h.demand
  curtain    := h.curtain
  windows    := h.windows
  desired    := h.desired

theorem State.takePhaseCap_grants (s : State) : (s.capAndAccounts false).GrantsOnly s.takePhaseCap := by
  unfold State.takePhaseCap
  exact State.grantsOnly_passIfCapChanged _ s

theorem State.rollover_grants (s : State) : (s.capAndAccounts true).GrantsOnly s.takePhaseCap.rollover := by
  have h := s.takePhaseCap_grants
  generalize s.takePhaseCap = t at h
  have calendar : t.calendar = s.calendar := h.calendar
  have current : t.accounts = s.accounts := h.accounts
  have k := h.besideAccounts ⟨.begin s.calendar.record.entered true s.phase, some s.accounts.current⟩
    (LinkInterface.grows_notify t.links .supervisor (.shiftSummary s.accounts.current.report))
  unfold State.rollover State.phase; dsimp only
  rw [calendar, current]
  exact k

/-! ### Step 5 of a transition -/

theorem State.handOn_eq (s : State) (before : Phase) (mark : Bool) : s.handOn before mark
    = if mark = true then (s.cycle.retarget.doorTransition before mark).takePhaseCap.rollover
      else (s.cycle.retarget.doorTransition before mark).takePhaseCap := by
  unfold State.handOn; rfl

/-- Step 5, block by block: what the cycle and the groups leave, then the Door Unit, then grants alone beside the phase cap and
the accounts. -/
theorem State.handOn_spec (s : State) (before : Phase) (mark : Bool) : ∃ b c : State, b = s.cycle.retarget
    ∧ c = b.doorTransition before mark ∧ s.Resettles b ∧ b.DoorTakes c before mark
    ∧ (c.capAndAccounts mark).GrantsOnly (s.handOn before mark) := by
  have resettled := s.resettles
  have takes := s.cycle.retarget.doorTransition_spec before mark
  refine ⟨s.cycle.retarget, s.cycle.retarget.doorTransition before mark, rfl, rfl, resettled, takes, ?_⟩
  rw [State.handOn_eq]
  cases mark with
  | false => rw [if_neg Bool.false_ne_true]; exact State.takePhaseCap_grants _
  | true => rw [if_pos rfl]; exact State.rollover_grants _

/-! ### The Door Unit's channels (R47, R48) -/

theorem State.reachesLimit_iff (s : State) (n : Nat) : s.reachesLimit n = true ↔
    (s.paramsOf s.phase).longOpen ≠ 0 ∧ 60 * (s.paramsOf s.phase).longOpen ≤ n := by
  simp [State.reachesLimit]

theorem State.not_reachesLimit_iff (s : State) (n : Nat) : ¬ s.reachesLimit n = true ↔
    (s.paramsOf s.phase).longOpen = 0 ∨ n < 60 * (s.paramsOf s.phase).longOpen := by
  rw [State.reachesLimit_iff]; omega

theorem State.reaching_iff (s : State) (d : Fin 32) : s.reaching d = true ↔
    (s.channel d).state = .opened ∧ s.reachesLimit (s.channel d).interval = true := by
  simp [State.reaching]

/-- A channel the Door Unit has taken through a transition: HELD where it was OPEN and reached the limit, its state kept
elsewhere, and its tallies zeroed with the mark. -/
theorem State.DoorTakes.state {before : Phase} {mark : Bool} (h : s.DoorTakes t before mark) (d : Fin 32) :
    (t.channel d).state = if s.reaching d = true then .held else (s.channel d).state := by
  rw [h.channels]
  simp only [State.reaching_iff]
  cases mark <;> rfl

theorem State.DoorTakes.becameHeld {before : Phase} {mark : Bool} (h : s.DoorTakes t before mark) (d : Fin 32) :
    (s.channel d).state = .opened ∧ (t.channel d).state = .held ↔ s.reaching d = true := by
  rw [h.state]
  constructor
  · rintro ⟨opened, held⟩
    by_contra no
    rw [if_neg no, opened] at held
    cases held
  · intro yes
    exact ⟨((s.reaching_iff d).mp yes).1, if_pos yes⟩

theorem State.DoorTakes.fields {before : Phase} {mark : Bool} (h : s.DoorTakes t before mark) (d : Fin 32) :
    t.channel d = { s.channel d with
      state := (t.channel d).state, openings := (t.channel d).openings
      openSeconds := (t.channel d).openSeconds, longest := (t.channel d).longest } := by
  rw [h.channels]
  cases mark <;> rfl

theorem State.DoorTakes.tallies {before : Phase} {mark : Bool} (h : s.DoorTakes t before mark) (d : Fin 32) :
    ((t.channel d).openings, (t.channel d).openSeconds, (t.channel d).longest)
      = if mark then (0, 0, 0) else ((s.channel d).openings, (s.channel d).openSeconds, (s.channel d).longest) := by
  rw [h.channels]
  cases mark <;> rfl

end Sys2Proof.Machine
end

section
/-! SUPPORT. What a transition leaves in every block (R9), proved for a state that has just entered its phase, whatever else has
been offered on the links by then: the answer of a call comes between steps 4 and 5 (assumption 6). -/

namespace Sys2Proof.Machine

variable {s t u b c : State} {mark : Bool} {before : Phase}

/-! ### From the state that entered to the state step 5 leaves -/

/-- Step 5 of a transition, from `u` through the retargeted `b` and the Door Unit's `c` to `t`. -/
structure State.HandsOn (u b c t : State) (before : Phase) (mark : Bool) : Prop where
  resettles : u.Resettles b
  takes     : b.DoorTakes c before mark
  grants    : (c.capAndAccounts mark).GrantsOnly t

theorem State.handOn_handsOn (u : State) (before : Phase) (mark : Bool) :
    ∃ b c, u.HandsOn b c (u.handOn before mark) before mark := by
  obtain ⟨b, c, -, -, resettles, takes, grants⟩ := u.handOn_spec before mark
  exact ⟨b, c, resettles, takes, grants⟩

namespace State.HandsOn

/-- A part of the state that none of the three stages changes. -/
theorem same {α : Type} (h : u.HandsOn b c t before mark) (f : State → α) (cycled : f b = f u)
    (taken : f { b with doors := { b.doors with channels := c.doors.channels, queue := c.doors.queue }, links := c.links } = f b)
    (granted : f t = f c) : f t = f u :=
  granted.trans ((congrArg f h.takes.only).trans (taken.trans cycled))

theorem calendar (h : u.HandsOn b c t before mark) : t.calendar = u.calendar :=
  h.same State.calendar h.resettles.only.calendar rfl h.grants.calendar

theorem clock (h : u.HandsOn b c t before mark) : t.clock = u.clock :=
  h.same State.clock h.resettles.only.clock rfl h.grants.clock

theorem climate (h : u.HandsOn b c t before mark) : t.climate = u.cycledClimate :=
  h.grants.climate.trans ((congrArg State.climate h.takes.only).trans h.resettles.cycles.climate)

theorem demand (h : u.HandsOn b c t before mark) : t.budget.demand = some u.cycledClimate.demandSet :=
  h.grants.demand.trans ((congrArg (fun x => x.budget.demand) h.takes.only).trans h.resettles.cycles.demand)

theorem links (h : u.HandsOn b c t before mark) : u.links.Grows t.links :=
  (h.resettles.only.links.trans h.takes.links).trans h.grants.links

theorem accounts (h : u.HandsOn b c t before mark) : t.accounts
    = if mark then ⟨.begin u.calendar.record.entered true u.phase, some u.accounts.current⟩ else u.accounts := by
  have calendar : c.calendar = u.calendar := (congrArg State.calendar h.takes.only).trans h.resettles.only.calendar
  have accounts : c.accounts = u.accounts := (congrArg State.accounts h.takes.only).trans h.resettles.only.accounts
  have kept := h.grants.accounts
  unfold State.capAndAccounts State.phase at kept; dsimp only at kept
  rw [calendar, accounts] at kept
  exact kept

theorem phaseCap (h : u.HandsOn b c t before mark) : t.budget.phaseCap = (t.paramsOf u.phase).cap := by
  have calendar : c.calendar = t.calendar := h.grants.calendar.symm
  have kept := h.grants.caps.1
  unfold State.capAndAccounts State.paramsOf State.phase at kept; dsimp only at kept
  unfold State.paramsOf State.phase
  rw [kept, calendar, h.calendar]

/-! ### The lamp groups and the lines -/

theorem light (h : u.HandsOn b c t before mark) : t.lighting.luxStart = u.lighting.luxStart
    ∧ t.lighting.gain = u.lighting.gain ∧ t.lighting.taken = u.lighting.taken := by
  have cb : c.lighting = b.lighting := (congrArg State.lighting h.takes.only).trans rfl
  obtain ⟨start, gain, taken⟩ := h.grants.light
  obtain ⟨start', gain', taken'⟩ := h.resettles.only.light
  unfold State.capAndAccounts at start gain taken; dsimp only at start gain taken
  rw [cb] at start gain taken
  exact ⟨start.trans start', gain.trans gain', taken.trans taken'⟩

theorem lights (h : u.HandsOn b c t before mark) (g : Fin 24) :
    (t.lighting.groups.get g).config = (u.lighting.groups.get g).config
    ∧ (t.lighting.groups.get g).state = (u.lighting.groups.get g).state
    ∧ (t.lighting.groups.get g).hold = (u.lighting.groups.get g).hold
    ∧ (t.lighting.groups.get g).override = (u.lighting.groups.get g).override
    ∧ (t.lighting.groups.get g).lastOccupancy = (u.lighting.groups.get g).lastOccupancy
    ∧ (t.lighting.groups.get g).trim = (u.lighting.groups.get g).trimNow (u.scene g) u.lighting.taken
    ∧ (t.lighting.groups.get g).desired = (u.lighting.groups.get g).desiredNow (u.scene g) u.lighting.taken := by
  have cb : c.lighting = b.lighting := (congrArg State.lighting h.takes.only).trans rfl
  obtain ⟨config, state, hold, override, occupancy⟩ := h.grants.groups g
  obtain ⟨trim, desired⟩ := h.grants.desired g
  obtain ⟨config', state', hold', override', occupancy'⟩ := h.resettles.only.groups g
  unfold State.capAndAccounts at config state hold override occupancy trim desired
  dsimp only at config state hold override occupancy trim desired
  rw [cb] at config state hold override occupancy trim desired
  exact ⟨config.trans config', state.trans state', hold.trans hold', override.trans override',
    occupancy.trans occupancy', trim.trans (h.resettles.trim g), desired.trans (h.resettles.level g)⟩

theorem lines (h : u.HandsOn b c t before mark) (l : Fin 192) :
    (t.lines.lines.get l).config = (u.lines.lines.get l).config
    ∧ (t.lines.lines.get l).driven = (u.lines.lines.get l).driven
    ∧ ((u.lines.lines.get l).config.mode = .input ∨ u.functionOn (u.lines.lines.get l).config.binding = none →
        (t.lines.lines.get l).latch = (u.lines.lines.get l).latch) := by
  have cb : c.lines = b.lines := (congrArg State.lines h.takes.only).trans rfl
  obtain ⟨config, driven⟩ := h.grants.lines l
  have latch := h.grants.latches l
  obtain ⟨config', driven'⟩ := h.resettles.only.lines l
  rw [State.functionOn_none _ u] at latch
  unfold State.capAndAccounts at config driven latch
  dsimp only at config driven latch
  rw [cb] at config driven latch
  refine ⟨config.trans config', driven.trans driven', fun free => ?_⟩
  rw [config'] at latch
  exact (latch free).trans (h.resettles.only.latches l free)

/-! ### The doors -/

theorem channel (h : u.HandsOn b c t before mark) (d : Fin 32) : t.channel d = c.channel d :=
  congrArg (fun x => x.get d) h.grants.channels

theorem channel_cycled (h : u.HandsOn b c t before mark) (d : Fin 32) : b.channel d = u.channel d :=
  congrArg (fun x => x.get d) h.resettles.only.channels

theorem fields (h : u.HandsOn b c t before mark) (d : Fin 32) : t.channel d = { u.channel d with
    state := (t.channel d).state, openings := (t.channel d).openings
    openSeconds := (t.channel d).openSeconds, longest := (t.channel d).longest } := by
  rw [h.channel, ← h.channel_cycled]
  exact h.takes.fields d

theorem tallies (h : u.HandsOn b c t before mark) (d : Fin 32) :
    ((t.channel d).openings, (t.channel d).openSeconds, (t.channel d).longest)
      = if mark then (0, 0, 0) else ((u.channel d).openings, (u.channel d).openSeconds, (u.channel d).longest) := by
  rw [h.channel, ← h.channel_cycled]
  exact h.takes.tallies d

theorem reachesLimit (h : u.HandsOn b c t before mark) (n : Nat) : ¬ b.reachesLimit n = true ↔
    (t.paramsOf u.phase).longOpen = 0 ∨ n < 60 * (t.paramsOf u.phase).longOpen := by
  rw [State.not_reachesLimit_iff]
  unfold State.paramsOf State.phase
  rw [h.calendar, h.resettles.only.calendar]

/-- A door is OPEN after the transition exactly where it was OPEN and below the new limit, and HELD where it reached it. -/
theorem state (h : u.HandsOn b c t before mark) (d : Fin 32) :
    (t.channel d).state = if b.reaching d = true then .held else (u.channel d).state := by
  rw [h.channel, ← h.channel_cycled]
  exact h.takes.state d

theorem becameHeld (h : u.HandsOn b c t before mark) (d : Fin 32) :
    (u.channel d).state = .opened ∧ (t.channel d).state = .held ↔ b.reaching d = true := by
  rw [h.channel, ← h.channel_cycled]
  exact h.takes.becameHeld d

theorem reaching (h : u.HandsOn b c t before mark) (d : Fin 32) : b.reaching d = true ↔
    (u.channel d).state = .opened ∧ b.reachesLimit (u.channel d).interval = true := by
  rw [State.reaching_iff, h.channel_cycled]

theorem held (h : u.HandsOn b c t before mark) (d : Fin 32) (opened : (t.channel d).state = .opened) :
    (t.paramsOf u.phase).longOpen = 0 ∨ (t.channel d).interval < 60 * (t.paramsOf u.phase).longOpen := by
  rw [h.state] at opened
  have interval : (t.channel d).interval = (u.channel d).interval :=
    (congrArg Channel.interval (h.fields d)).trans rfl
  rw [interval, ← h.reachesLimit]
  intro reached
  split at opened
  · cases opened
  · next no => exact no ((h.reaching d).mpr ⟨opened, reached⟩)

theorem stays (h : u.HandsOn b c t before mark) (d : Fin 32) (opened : (u.channel d).state = .opened)
    (below : (t.paramsOf u.phase).longOpen = 0 ∨ (u.channel d).interval < 60 * (t.paramsOf u.phase).longOpen) :
    (t.channel d).state = .opened := by
  rw [h.state, if_neg fun yes => (h.reachesLimit _).mpr below ((h.reaching d).mp yes).2]
  exact opened

theorem moves (h : u.HandsOn b c t before mark) (d : Fin 32) (moved : (t.channel d).state ≠ (u.channel d).state) :
    (u.channel d).state = .opened ∧ (t.channel d).state = .held := by
  refine (h.becameHeld d).mpr ?_
  by_contra no
  exact moved ((h.state d).trans (if_neg no))

theorem heldFlag (h : u.HandsOn b c t before mark)
    (became : ∃ d, (u.channel d).state = .opened ∧ (t.channel d).state = .held) : t.links.isSet .doorHeld = true := by
  obtain ⟨d, hd⟩ := became
  exact h.grants.links.flags _ (h.takes.flag ⟨d, (h.becameHeld d).mp hd⟩)

theorem queue (h : u.HandsOn b c t before mark) : t.doors.queue = c.doors.queue := h.grants.records

theorem records (h : u.HandsOn b c t before mark) (still : ∀ d, (t.channel d).state = (u.channel d).state)
    (no : ¬ (busyClass before = true ∧ busyClass u.phase = false ∧ u.doors.quiet < u.doors.busy)) :
    t.doors.queue = u.doors.queue := by
  obtain ⟨busy, quiet, -⟩ := h.resettles.only.thresholds
  refine h.queue.trans ((h.takes.records (fun d => ?_) ?_).trans h.resettles.only.records)
  · by_contra reached
    obtain ⟨was, is⟩ := (h.becameHeld d).mpr (Bool.not_eq_false _ ▸ reached)
    rw [still, was] at is
    cases is
  · rw [busy, quiet]
    unfold State.phase
    rw [h.resettles.only.calendar]
    exact no

theorem unsent (h : u.HandsOn b c t before mark) (silent : u.doors.notices = false) : t.doors.queue = u.doors.queue
    ++ (((indices 32).filter fun d => (u.channel d).state = .opened ∧ (t.channel d).state = .held).map fun d =>
        ⟨d, .held, u.clock.weekSecond, u.phase, none⟩).take (64 - u.doors.queue.length) := by
  obtain ⟨-, -, notices⟩ := h.resettles.only.thresholds
  have offered := h.takes.silent (notices.trans silent)
  have doors : (indices 32).filter b.reaching
      = (indices 32).filter fun d => (u.channel d).state = .opened ∧ (t.channel d).state = .held :=
    List.filter_congr fun d _ => by
      rw [Bool.eq_iff_iff, decide_eq_true_iff]; exact (h.becameHeld d).symm
  rw [h.queue, offered, doors, h.resettles.only.records, h.resettles.only.clock]
  unfold State.phase
  rw [h.resettles.only.calendar]

theorem thresholds (h : u.HandsOn b c t before mark) : t.doors.busy = u.doors.busy ∧ t.doors.quiet = u.doors.quiet
    ∧ t.doors.notices = u.doors.notices := by
  obtain ⟨busy, quiet, notices⟩ := h.grants.thresholds
  obtain ⟨busy', quiet', notices'⟩ := h.resettles.only.thresholds
  exact ⟨h.same (fun x => x.doors.busy) busy' rfl busy, h.same (fun x => x.doors.quiet) quiet' rfl quiet,
    h.same (fun x => x.doors.notices) notices' rfl notices⟩

theorem times (h : u.HandsOn b c t before mark) : t.budget.minOn = u.budget.minOn ∧ t.budget.minOff = u.budget.minOff := by
  obtain ⟨on, off⟩ := h.grants.times
  obtain ⟨on', off'⟩ := h.resettles.only.times
  exact ⟨h.same (fun x => x.budget.minOn) on' rfl on, h.same (fun x => x.budget.minOff) off' rfl off⟩

/-! ### The forecasts and the curtains -/

theorem zoneMode (h : u.HandsOn b c t before mark) : t.zoneMode = b.zoneMode := by
  unfold State.zoneMode
  have same : t.climate = b.climate := h.grants.climate.trans ((congrArg State.climate h.takes.only).trans rfl)
  rw [same]

theorem windows (h : u.HandsOn b c t before mark) : t.doors.forecasts = u.doors.forecasts.filter fun f =>
    ∀ z, (u.channel f.door).config.zone = some z → t.zoneMode z = u.zoneMode z ∨ t.zoneMode z = .auto := by
  rw [h.zoneMode]
  exact h.grants.windows.trans ((congrArg (fun x => x.doors.forecasts) h.takes.only).trans h.resettles.cycles.forecasts)

theorem curtains (h : u.HandsOn b c t before mark) (i : Fin 16) :
    (t.doors.curtains.get i).config = (u.doors.curtains.get i).config
    ∧ (t.zoneMode (u.doors.curtains.get i).config.zone = u.zoneMode (u.doors.curtains.get i).config.zone →
        (t.doors.curtains.get i).state = (u.doors.curtains.get i).state
        ∧ (t.doors.curtains.get i).remaining = (u.doors.curtains.get i).remaining) := by
  refine ⟨h.same (fun x => (x.doors.curtains.get i).config) (h.resettles.only.curtains i) rfl (h.grants.curtains i),
    fun kept => ?_⟩
  rw [h.zoneMode] at kept
  have stands : c.curtainStands i = b.curtainStands i := (congrArg (fun x => State.curtainStands x i) h.takes.only).trans rfl
  have cycled := h.resettles.cycles.curtains i kept
  obtain ⟨state, remaining⟩ := h.grants.curtain i
  have all := stands.trans cycled
  exact ⟨state.trans (congrArg Prod.fst all), remaining.trans (congrArg Prod.snd all)⟩

end State.HandsOn

/-! ### The whole transition -/

/-- The state a transition's steps 2 to 4 make, beside some links. -/
def State.entered (s : State) (p : Phase) (src : Source) (v : Option Override) (x : LinkInterface) : State :=
  { s with
    calendar := { s.calendar.applyStaging s.setpointLimit with record := ⟨p, src, s.clock.weekSecond, v⟩ }, links := x }

theorem State.enter_eq_entered (s : State) (p : Phase) (src : Source) (v : Option Override) :
    s.enter p src v = s.entered p src v (s.enter p src v).links := rfl

theorem State.transitioned_of_entered {x : LinkInterface} (s : State) (p : Phase) (src : Source) (v : Option Override)
    (mark : Bool) (grown : s.links.Grows x) (set : x.isSet .phaseChanged = true) :
    s.Transitioned ((s.entered p src v x).handOn s.phase mark) p src v mark := by
  obtain ⟨b, c, h⟩ := (s.entered p src v x).handOn_handsOn s.phase mark
  generalize (s.entered p src v x).handOn s.phase mark = t at h
  have scene (g : Fin 24) : (s.entered p src v x).scene g = t.sceneOf p g := by
    unfold State.scene State.sceneOf; rw [h.calendar]; rfl
  have climate : t.climate = State.cycledClimate { s with calendar := t.calendar } := by
    rw [h.climate, h.calendar]; rfl
  exact {
    calendar := h.calendar
    staged := by rw [h.calendar]; rfl
    changed := h.links.flags _ set
    climate
    demand := by rw [h.demand, h.climate]; rfl
    lights := fun g => by rw [← scene g]; exact h.lights g
    light := h.light
    held := h.held
    channels := fun d => ⟨h.fields d, h.moves d⟩
    stays := h.stays
    heldFlag := h.heldFlag
    tallies := h.tallies
    records := h.records
    unsent := h.unsent
    rings := h.same (fun x => x.doors.rings) h.resettles.only.rings rfl h.grants.rings
    batching := h.thresholds
    windows := h.windows
    curtains := fun i y hy => by subst hy; exact h.curtains i
    phaseCap := h.phaseCap
    supCap := h.same (fun x => x.budget.supCap) h.resettles.only.caps.2 rfl h.grants.caps.2
    ratings := h.same (fun x => x.budget.ratings) h.resettles.only.ratings rfl h.grants.ratings
    times := h.times
    accounts := h.accounts
    clock := h.clock
    power := h.same State.power h.resettles.only.power rfl h.grants.power
    sensors := h.same State.sensors h.resettles.only.sensors rfl h.grants.sensors
    store := h.same State.store h.resettles.only.store rfl h.grants.store
    boards := h.same (fun x => x.lines.boards) h.resettles.only.boards rfl h.grants.boards
    lines := h.lines
    links := grown.trans h.links
    owed := h.same State.owed h.resettles.only.owed rfl h.grants.owed
    pending := h.same State.pending h.resettles.only.pending rfl h.grants.pending }

end Sys2Proof.Machine
end

section
/-! SUPPORT. The notices of a transition, the phase cap, and the Door Unit's part in the words of the statements (R9, R10, R47,
R106, R168, R181). -/

namespace Sys2Proof.Machine

variable {s t u : State}

/-! ### The notices (R10, R168, R181) -/

/-- A notice joins the end of its own link's queue while that has room and no RESTART is pending (R163, R170). -/
theorem LinkInterface.notify_queue (i : LinkInterface) (l m : Link) (n : Notice) : ((i.notify l n).link m).queue
    = if l = m ∧ i.restart = none ∧ (i.link m).queue.length < 8 then (i.link m).queue ++ [noticeFrame n]
      else (i.link m).queue := by
  unfold LinkInterface.notify LinkInterface.offer
  by_cases restarting : i.restart = none
  · by_cases own : l = m
    · subst own
      by_cases room : (i.link l).queue.length < 8 <;> simp [restarting, LinkState.offer_queue, Config.queueFrames, room]
    · simp [restarting, own]
  · simp [restarting, Option.isSome_iff_ne_none]

/-- The same notice offered on both links. -/
theorem LinkInterface.notify_both_queue (i : LinkInterface) (l : Link) (n : Notice) :
    (((i.notify .supervisor n).notify .panel n).link l).queue
    = if i.restart = none ∧ (i.link l).queue.length < 8 then (i.link l).queue ++ [noticeFrame n] else (i.link l).queue := by
  have restart : (i.notify .supervisor n).restart = i.restart := (i.grows_notify _ _).restart
  cases l <;> simp [LinkInterface.notify_queue, restart]

theorem State.enter_links (s : State) (p : Phase) (src : Source) (v : Option Override) : (s.enter p src v).links
    = ((s.links.raise .phaseChanged).notify .supervisor (.phase (s.enter p src v).phaseReport)).notify .panel
        (.phase (s.enter p src v).phaseReport) := rfl

theorem State.enter_changed (s : State) (p : Phase) (src : Source) (v : Option Override) :
    (s.enter p src v).links.isSet .phaseChanged = true := by
  rw [State.enter_links]
  refine (LinkInterface.grows_notify _ _ _).flags _ ((LinkInterface.grows_notify _ _ _).flags _ ?_)
  simp [LinkInterface.isSet_raise]

theorem State.enter_phaseReport (s : State) (p : Phase) (src : Source) (v : Option Override) : (s.enter p src v).phaseReport
    = ⟨p, src, s.clock.weekSecond, s.overrideEndTime v, (s.enter p src v).scheduled⟩ := rfl

theorem State.rollover_links (s : State) :
    s.rollover.links = s.links.notify .supervisor (.shiftSummary s.accounts.current.report) := rfl

/-- What step 5 offers: nothing to the panel, and with the mark the summary that ends last of all. -/
theorem State.handOn_notices (s : State) (before : Phase) (mark : Bool) :
    (s.handOn before mark).links.panel = s.links.panel
    ∧ ∃ q, s.links.supervisor.queue <+: q ∧ (s.handOn before mark).links.supervisor.queue =
        (if mark = true ∧ s.links.restart = none ∧ q.length < 8
          then q ++ [noticeFrame (.shiftSummary s.accounts.current.report)] else q) := by
  obtain ⟨b, c, hb, hc, resettles, takes, -⟩ := s.handOn_spec before mark
  have spoken : s.Speaks c := by
    rw [hc, hb]
    exact (s.cycle_speaks.trans (State.retarget_speaks _)).trans (State.doorTransition_speaks _ _ _)
  have accounts : c.accounts = s.accounts := (congrArg State.accounts takes.only).trans resettles.only.accounts
  have restart : c.links.restart = s.links.restart := takes.links.restart.trans resettles.only.links.restart
  rw [State.handOn_eq, ← hb, ← hc]
  have capped := c.takePhaseCap_raises.speaks
  have kept := c.takePhaseCap_grants
  generalize c.takePhaseCap = w at capped kept
  obtain ⟨panel, queue⟩ := spoken.trans capped
  have accounts' : w.accounts = s.accounts := kept.accounts.trans accounts
  have restart' : w.links.restart = s.links.restart := kept.links.restart.trans restart
  cases mark with
  | false =>
    rw [if_neg Bool.false_ne_true]
    exact ⟨panel, w.links.supervisor.queue, queue, by simp⟩
  | true =>
    have other := w.links.notify_queue .supervisor .panel (.shiftSummary w.accounts.current.report)
    have own := w.links.notify_queue .supervisor .supervisor (.shiftSummary w.accounts.current.report)
    refine ⟨?_, w.links.supervisor.queue, queue, ?_⟩
    · rw [if_pos rfl, State.rollover_links, ← panel]
      unfold LinkInterface.notify; split <;> rfl
    · rw [if_pos rfl, State.rollover_links]
      rw [accounts', restart'] at own
      rw [accounts']
      simp only [true_and] at own ⊢
      exact own

theorem transitionNotices_spec : Claims.TransitionNotices := by
  refine ⟨fun s t p src v x ht hx => ?_, fun s t before mark c ht hc => ?_⟩
  · have report : x = (s.enter p src v).phaseReport := by
      rw [State.enter_phaseReport, State.overrideEndTime_eq, hx, ht]; rfl
    subst ht
    refine ⟨rfl, s.enter_changed p src v, fun l q hq => ?_, fun mark => by unfold State.transition; exact Eq.refl _⟩
    have offered := (s.links.raise .phaseChanged).notify_both_queue l (.phase (s.enter p src v).phaseReport)
    rw [(s.links.grows_raise .phaseChanged).restart, ← State.enter_links, ← hq, ← report] at offered
    exact offered
  · subst ht hc
    exact s.handOn_notices before mark

/-! ### The phase cap (R106, R109) -/

theorem State.takePhaseCap_eq (s t : State)
    (ht : t = { s with budget := { s.budget with phaseCap := (s.paramsOf s.phase).cap } }) :
    s.takePhaseCap = if t.budget.capInForce = s.budget.capInForce then t else t.passAndHand := by
  subst ht
  unfold State.takePhaseCap State.passIfCapChanged
  exact Eq.refl _

theorem phaseCapsTaken_spec : Claims.PhaseCapsTaken := by
  refine ⟨fun a => rfl, fun s t ht => s.takePhaseCap_eq t ht, fun s u v before mark hu hv => ?_⟩
  · obtain ⟨b, c, hb, hc, resettles, takes, -⟩ := s.handOn_spec before mark
    rw [← hb, ← hc] at hu
    have calendar : u.calendar = s.calendar := by
      rw [hu]; exact (congrArg State.calendar takes.only).trans resettles.only.calendar
    have params : (u.paramsOf u.phase).cap = (s.paramsOf s.phase).cap := by
      unfold State.paramsOf State.phase; rw [calendar]
    have cap : u.budget.capInForce = s.budget.capInForce := by
      have budget : u.budget = b.budget := by rw [hu]; exact (congrArg State.budget takes.only).trans rfl
      obtain ⟨phaseCap, supCap⟩ := resettles.only.caps
      rw [budget]; unfold Allocator.capInForce; rw [phaseCap, supCap]
    have taken : u.takePhaseCap = if v.budget.capInForce = s.budget.capInForce then v else v.passAndHand := by
      rw [← cap]; exact u.takePhaseCap_eq v (by rw [hv, params])
    rw [State.handOn_eq, ← hb, ← hc, ← hu, taken]

/-! ### The Door Unit (R47, R48, R60) -/

/-- Two folds agree where their steps agree on every state that keeps what the first keeps. -/
theorem foldl_eq_foldl {α β : Type} (P : β → Prop) (f g : β → α → β) (same : ∀ b a, P b → f b a = g b a)
    (kept : ∀ b a, P b → P (g b a)) (l : List α) (b : β) (h : P b) : l.foldl f b = l.foldl g b := by
  induction l generalizing b with
  | nil => rfl
  | cons a l ih => rw [List.foldl_cons, List.foldl_cons, same b a h]; exact ih _ (kept b a h)

/-- A comparison of a door leaves the calendar and the clock. -/
theorem State.compareDoor_stands (s : State) (d : Fin 32) :
    (s.compareDoor d).calendar = s.calendar ∧ (s.compareDoor d).clock = s.clock := by
  rw [State.compareDoor_eq]
  split
  · have only := (s.setChannel d { s.channel d with state := .held }).queueOnly_offerRecord
      ⟨d, .held, s.clock.weekSecond, s.phase, none⟩
    generalize (s.setChannel d { s.channel d with state := .held }).offerRecord
      ⟨d, .held, s.clock.weekSecond, s.phase, none⟩ = t at only
    unfold State.QueueOnly at only
    rw [only]
    exact ⟨rfl, rfl⟩
  · exact ⟨rfl, rfl⟩

theorem State.reachesLimit_of_calendar {n : Nat} (h : t.calendar = s.calendar) : t.reachesLimit n = true ↔
    (s.paramsOf s.phase).longOpen ≠ 0 ∧ 60 * (s.paramsOf s.phase).longOpen ≤ n := by
  rw [State.reachesLimit_iff]
  unfold State.paramsOf State.phase
  rw [h]

theorem State.compareDoors_eq (s : State) (limit : Nat) (hl : limit = (s.paramsOf s.phase).longOpen) :
    s.compareDoors = (indices 32).foldl (fun u d =>
      if (u.channel d).state = .opened ∧ limit ≠ 0 ∧ 60 * limit ≤ (u.channel d).interval then
        ((u.setChannel d { u.channel d with state := .held }).offerRecord
          ⟨d, .held, s.clock.weekSecond, s.phase, none⟩).raise .doorHeld
      else u) s := by
  refine (foldl_eq_foldl (fun t : State => t.calendar = s.calendar ∧ t.clock = s.clock) _ (fun t d => t.compareDoor d)
    (fun t d h => ?_) (fun t d h => ?_) _ s ⟨rfl, rfl⟩).symm
  · obtain ⟨calendar, clock⟩ := h
    rw [State.compareDoor_eq, clock]
    unfold State.phase
    rw [calendar]
    simp only [State.reachesLimit_of_calendar calendar, ← hl]
  · obtain ⟨calendar, clock⟩ := t.compareDoor_stands d
    exact ⟨calendar.trans h.1, clock.trans h.2⟩

theorem busyClass_iff (p : Phase) : busyClass p = true ↔ p = .work ∨ p = .changeover := by
  cases p <;> simp [busyClass]

theorem busyClass_not_iff (p : Phase) : busyClass p = false ↔ p ≠ .work ∧ p ≠ .changeover := by
  cases p <;> simp [busyClass]

/-- The comparison of all doors leaves the thresholds and the phase in force. -/
theorem State.compareDoors_stands (s : State) : s.compareDoors.phase = s.phase
    ∧ s.compareDoors.doors.quiet = s.doors.quiet ∧ s.compareDoors.doors.busy = s.doors.busy := by
  have only := s.compares_all.only
  generalize s.compareDoors = v at only
  rw [only]
  exact ⟨rfl, rfl, rfl⟩

theorem State.doorTransition_eq (s v w : State) (before : Phase) (mark : Bool) (hv : v = s.compareDoors)
    (hw : w = if mark = true then v.zeroTallies else v) : s.doorTransition before mark
    = if (before = .work ∨ before = .changeover) ∧ s.phase ≠ .work ∧ s.phase ≠ .changeover ∧ s.doors.quiet < s.doors.busy
      then w.batchCheck else w := by
  have stands : w.phase = s.phase ∧ w.doors.quiet = s.doors.quiet ∧ w.doors.busy = s.doors.busy := by
    obtain ⟨phase, quiet, busy⟩ := s.compareDoors_stands
    rw [← hv] at phase quiet busy
    rw [hw]
    split
    · exact ⟨phase, quiet, busy⟩
    · exact ⟨phase, quiet, busy⟩
  obtain ⟨phase, quiet, busy⟩ := stands
  have spelled : s.doorTransition before mark
      = if busyClass before = true ∧ busyClass w.phase = false ∧ w.doors.quiet < w.doors.busy then w.batchCheck else w := by
    unfold State.doorTransition; dsimp only; rw [← hv, ← hw]
  rw [spelled, phase, quiet, busy]
  simp only [busyClass_iff, busyClass_not_iff, and_assoc]

theorem doorUnitTakesTransitions_spec : Claims.DoorUnitTakesTransitions := by
  refine ⟨fun s v w before mark limit hl hv hw => ?_, fun s u before mark hu => ?_⟩
  · rw [← s.compareDoors_eq limit hl] at hv
    exact s.doorTransition_eq v w before mark hv hw
  · obtain ⟨b, c, hb, hc, resettles, takes, grants⟩ := s.handOn_spec before mark
    generalize s.handOn before mark = t at grants
    rw [← hb] at hu
    subst hu
    rw [← hc]
    refine ⟨resettles.only.records, resettles.only.channels, ?_, grants.records, grants.channels⟩
    unfold State.phase
    rw [resettles.only.calendar]

/-! ### The settlement -/

theorem State.transitioned_transition (s : State) (p : Phase) (src : Source) (v : Option Override) (mark : Bool) :
    s.Transitioned (s.transition p src v mark) p src v mark := by
  unfold State.transition
  rw [State.enter_eq_entered]
  exact s.transitioned_of_entered p src v mark (s.sound_enter p src v).links (s.enter_changed p src v)

theorem State.transitioned_answered (s : State) (k : CallKind) (o : Origin) (r : Reply) (p : Phase) (src : Source)
    (v : Option Override) : s.Transitioned (((s.enter p src v).answer k o r).handOn s.phase false) p src v false := by
  have answered : (s.enter p src v).answer k o r = s.entered p src v ((s.enter p src v).answer k o r).links := rfl
  have grown : (s.enter p src v).links.Grows ((s.enter p src v).answer k o r).links := LinkInterface.grows_offer _ _ _
  rw [answered]
  exact s.transitioned_of_entered p src v false ((s.sound_enter p src v).links.trans grown)
    (grown.flags _ (s.enter_changed p src v))

/-- Settles O16: a transition is the state that has entered its phase, handed to each block in turn. -/
theorem transitionLeaves : Obligations.TransitionLeaves :=
  ⟨transitionNotices_spec, phaseCapsTaken_spec, doorUnitTakesTransitions_spec, State.transitioned_transition,
   State.transitioned_answered⟩

end Sys2Proof.Machine
end

section
/-! SUPPORT. The lines' settings and driven levels, which nothing in a tick but its scan moves (R147, R151, R152). -/

namespace Sys2Proof.Machine

variable {s t u : State}

/-- Every line's settings and driven level stand. -/
def State.PointsStand (s t : State) : Prop := ∀ l, (t.lines.lines.get l).config = (s.lines.lines.get l).config
  ∧ (t.lines.lines.get l).driven = (s.lines.lines.get l).driven

namespace State.PointsStand

theorem refl (s : State) : s.PointsStand s := fun _ => ⟨rfl, rfl⟩

theorem trans (h : s.PointsStand t) (k : t.PointsStand u) : s.PointsStand u := fun l =>
  ⟨(k l).1.trans (h l).1, (k l).2.trans (h l).2⟩

theorem of_lines (h : t.lines.lines = s.lines.lines) : s.PointsStand t := fun l => by rw [h]; exact ⟨rfl, rfl⟩

theorem forEach {n : Nat} {f : Fin n → State → State} (h : ∀ i s, State.PointsStand s (f i s)) (s : State) :
    s.PointsStand (s.forEach n f) :=
  foldl_keeps State.PointsStand refl trans _ (fun s i => h i s) _ s

end State.PointsStand

theorem State.CycleOnly.points (h : s.CycleOnly t) : s.PointsStand t := h.lines

theorem State.GrantsOnly.points (h : s.GrantsOnly t) : s.PointsStand t := h.lines

theorem State.QueueOnly.points (h : s.QueueOnly t) : s.PointsStand t := by
  refine .of_lines ?_
  unfold State.QueueOnly at h
  rw [h]

/-! ### The lamp groups -/

theorem State.points_lightEvent (s : State) (gs : List (Fin 24)) (f : State → Fin 24 → Group → Group) :
    s.PointsStand (s.groupsDo gs f).settle :=
  .trans (State.groupsDo_keeps State.PointsStand .refl .trans f (fun _ _ => .of_lines rfl) gs s)
    (Handed.grantsOnly_settle _).points

theorem State.points_deliverOccupancy (s : State) (g : Fin 24) (a : Bool) : s.PointsStand (s.deliverOccupancy g a) := by
  unfold State.deliverOccupancy; dsimp only
  split
  · exact .trans (t := s.setGroup g { s.lighting.groups.get g with lastOccupancy := a }) (.of_lines rfl)
      (State.points_lightEvent _ _ _)
  · exact .of_lines rfl

/-! ### The doors -/

theorem State.points_deliverLine (s : State) (l : Fin 192) : s.PointsStand (s.deliverLine l) := by
  have door (d : Fin 32) (a : Bool) : s.PointsStand (s.deliverDoor d a) := by
    unfold State.deliverDoor; dsimp only
    split
    · exact .of_lines rfl
    · exact .refl s
  have trailer (d : Fin 32) (a : Bool) : s.PointsStand (s.deliverTrailer d a) := by
    unfold State.deliverTrailer; dsimp only
    split
    · exact .of_lines rfl
    · exact .refl s
  unfold State.deliverLine; dsimp only
  split
  · cases (s.lines.lines.get l).config.binding with
    | doorContact d => exact door d _
    | trailer d => exact trailer d _
    | occupancy g => exact s.points_deliverOccupancy g _
    | _ => exact .refl s
  · exact .refl s

theorem State.points_setChannel (s : State) (d : Fin 32) (x : Channel) : s.PointsStand (s.setChannel d x) := .of_lines rfl

theorem State.points_capture (s : State) (d : Fin 32) (k : RecordKind) (i : Option Nat) : s.PointsStand (s.capture d k i) := by
  unfold State.capture; dsimp only
  have offered (captured : Bool) :
      s.PointsStand (if captured = true then s.offerRecord (s.recordOf d k i) else s) := by
    split
    · exact (s.queueOnly_offerRecord _).points
    · exact .refl s
  exact offered _

theorem State.points_reevaluateOf (s : State) (c : Option (Fin 16)) : s.PointsStand (s.reevaluateOf c) := by
  cases c with
  | none => exact .refl s
  | some c => exact (s.cycleOnly_reevaluate c).points

theorem State.points_activityOf (s : State) (z : Option (Fin 8)) : s.PointsStand (s.activityOf z) := by
  cases z with
  | none => exact .refl s
  | some z => exact s.points_lightEvent _ _

theorem State.points_openingOf (s : State) (z : Option (Fin 8)) : s.PointsStand (s.openingOf z) := by
  cases z with
  | none => exact .refl s
  | some z => exact .of_lines rfl

theorem State.points_removeForecast (s : State) (d : Fin 32) : s.PointsStand (s.removeForecast d) := .of_lines rfl

theorem State.points_doorOpens (s : State) (d : Fin 32) : s.PointsStand (s.doorOpens d) := by
  unfold State.doorOpens; dsimp only
  exact (((((s.points_setChannel d _).trans (State.points_capture _ _ _ _)).trans (State.points_activityOf _ _)).trans
    (State.points_openingOf _ _)).trans (State.points_removeForecast _ d)).trans (State.points_reevaluateOf _ _)

theorem State.points_doorCloses (s : State) (d : Fin 32) : s.PointsStand (s.doorCloses d) :=
  ((s.points_setChannel d _).trans (State.points_capture _ _ _ _)).trans (State.points_reevaluateOf _ _)

theorem State.points_firstDoor (s : State) (d : Fin 32) (level : Bool) : s.PointsStand (s.firstDoor d level) := by
  unfold State.firstDoor; dsimp only
  split
  · exact (s.points_setChannel d _).trans (State.points_reevaluateOf _ _)
  · exact s.points_setChannel d _

theorem State.points_trailerEdge (s : State) (d : Fin 32) (level : Bool) : s.PointsStand (s.trailerEdge d level) := by
  unfold State.trailerEdge; dsimp only
  split
  · exact ((s.points_setChannel d _).trans (State.points_capture _ _ _ _)).trans (State.points_activityOf _ _)
  · exact (s.points_setChannel d _).trans (State.points_capture _ _ _ _)

theorem State.points_settleDoor (s : State) (d : Fin 32) : s.PointsStand (s.settleDoor d) := by
  unfold State.settleDoor
  split
  · exact .refl s
  · exact s.points_firstDoor d _
  · exact s.points_doorOpens d
  · exact s.points_doorCloses d
  · exact s.points_doorCloses d
  · exact s.points_setChannel d _

theorem State.points_settleTrailer (s : State) (d : Fin 32) : s.PointsStand (s.settleTrailer d) := by
  unfold State.settleTrailer
  split
  · exact .refl s
  · exact s.points_setChannel d _
  · exact s.points_trailerEdge d _

/-! ### Second boundaries -/

theorem State.points_transition (s : State) (p : Phase) (src : Source) (v : Option Override) (mark : Bool) :
    s.PointsStand (s.transition p src v mark) := fun l =>
  have ⟨config, driven, _⟩ := (s.transitioned_transition p src v mark).lines l
  ⟨config, driven⟩

theorem State.points_compareDoor (s : State) (d : Fin 32) : s.PointsStand (s.compareDoor d) := by
  rw [State.compareDoor_eq]
  split
  · exact ((s.points_setChannel d _).trans (State.queueOnly_offerRecord _ _).points).trans (State.grantsOnly_raise _ _).points
  · exact .refl s

theorem State.points_openSecond (s : State) (d : Fin 32) : s.PointsStand (s.openSecond d) := by
  unfold State.openSecond; dsimp only
  split
  · split
    · exact s.points_setChannel d _
    · exact .of_lines rfl
  · exact .refl s

theorem State.points_doorSecond (s : State) (d : Fin 32) : s.PointsStand (s.doorSecond d) := by
  unfold State.doorSecond; dsimp only
  split
  · exact .refl s
  · exact ((s.points_setChannel d _).trans (State.points_compareDoor _ d)).trans (State.points_openSecond _ d)

theorem State.points_curtainSecond (s : State) (c : Fin 16) : s.PointsStand (s.curtainSecond c) := by
  unfold State.curtainSecond; dsimp only
  split
  · split
    · exact .trans (t := State.setCurtain s c _) (.of_lines rfl) (State.grantsOnly_curtainRelease _ c).points
    · exact .of_lines rfl
  · exact .refl s

theorem State.points_setNode (s : State) (n : Fin 16) (x : Node) : s.PointsStand (s.setNode n x) := .of_lines rfl

theorem State.points_nodeSecond (s : State) (n : Fin 16) : s.PointsStand (s.nodeSecond n) := by
  unfold State.nodeSecond
  refine (s.points_setNode n (s.sensors.nodes.get n).older).trans ?_
  generalize s.setNode n (s.sensors.nodes.get n).older = t
  unfold State.compareNode; dsimp only
  split
  · exact (State.points_setNode _ n _).trans (State.grantsOnly_raiseIf _ _ _).points
  · exact .refl _

theorem State.points_overrideSecond (s : State) : s.PointsStand s.overrideSecond := by
  unfold State.overrideSecond
  split
  · split
    · exact s.points_transition _ _ _ _
    · exact .of_lines rfl
  · exact .refl s

theorem State.points_capSecond (s : State) : s.PointsStand s.capSecond := by
  unfold State.capSecond
  split
  · split
    · exact .trans (t := s.setCap none) (.of_lines rfl) (State.grantsOnly_passIfCapChanged _ _).points
    · exact .of_lines rfl
  · exact .refl s

theorem State.points_cycleSecond (s : State) : s.PointsStand s.cycleSecond := by
  unfold State.cycleSecond; dsimp only
  split
  · exact s.cycleOnly_cycle.points
  · exact .of_lines rfl

theorem State.points_lightSecond (s : State) : s.PointsStand s.lightSecond :=
  .trans (t := s.takeDaylight) (.of_lines rfl) (State.points_lightEvent _ _ _)

theorem State.points_secondFor (s : State) (x : SecondOf) : s.PointsStand (s.secondFor x) := by
  cases x with
  | override => exact s.points_overrideSecond
  | cap => exact s.points_capSecond
  | cycle => exact s.points_cycleSecond
  | lighting => exact s.points_lightSecond
  | door d => exact s.points_doorSecond d
  | curtain c => exact s.points_curtainSecond c
  | forecast d => exact .of_lines rfl
  | node n => exact s.points_nodeSecond n
  | stages z => exact (s.grantsOnly_stageSecond z).points

theorem State.points_deliverSecond (s : State) (x : SecondOf) : s.PointsStand (s.deliverSecond x) := by
  unfold State.deliverSecond
  split
  · exact .of_lines rfl
  · exact s.points_secondFor x

/-! ### The events of a tick -/

theorem State.points_takeDue (s : State) : s.PointsStand s.takeDue := by
  have settled : s.PointsStand s.takeSettlements :=
    .forEach (fun d s => (s.points_settleDoor d).trans (State.points_settleTrailer _ d)) s
  unfold State.takeDue; dsimp only
  generalize s.takeSettlements = t at settled
  refine settled.trans (.trans (t := { t with owed := [] }) (.of_lines rfl) ?_)
  exact foldl_keeps State.PointsStand .refl .trans State.secondFor State.points_secondFor _ _

theorem State.points_calendarMinute (s : State) : s.PointsStand s.calendarMinute := by
  unfold State.calendarMinute State.takeMatch State.evaluateLead
  split
  · exact .refl s
  · split
    · exact s.points_transition _ _ _ _
    · split
      · exact s.points_transition _ _ _ _
      · exact .refl s

theorem State.points_tickEvent (capture : Capture) (a b : Bool) (s : State) (e : TickEvent) (h : e ≠ .scan) :
    s.PointsStand (State.tickEvent capture a b s e) := by
  have one (c : Bool) {t : State} (ht : s.PointsStand t) : s.PointsStand (if c then t else s) := by
    split
    · exact ht
    · exact .refl s
  cases e with
  | scan => exact absurd rfl h
  | takeDue => exact s.points_takeDue
  | calendarMinute => exact one b s.points_calendarMinute
  | clockMinute => exact one b (s.grantsOnly_raiseIf _ _).points
  | ringMinute => exact one b (.of_lines rfl)
  | overrideSecond => exact one a (s.points_deliverSecond _)
  | doorSecond => exact one a (.forEach (fun d s => s.points_deliverSecond _) s)
  | curtainSecond => exact one a (.forEach (fun d s => s.points_deliverSecond _) s)
  | forecastSecond => exact one a (.forEach (fun d s => s.points_deliverSecond _) s)
  | nodeSecond => exact one a (.forEach (fun d s => s.points_deliverSecond _) s)
  | capSecond => exact one a (s.points_deliverSecond _)
  | stageSecond => exact one a (.forEach (fun d s => s.points_deliverSecond _) s)
  | lightSecond => exact one a (s.points_deliverSecond _)
  | cycleSecond => exact one a (s.points_deliverSecond _)
  | accountSecond => exact one a (.of_lines rfl)

end Sys2Proof.Machine
end

section
/-! SUPPORT. The tick (R1, R147, R148): its one scan, and what it finds before and after it. -/

namespace Sys2Proof.Machine

variable {s t u : State}

/-! ### The order of a tick's events -/

theorem nodup_eraseDups {α : Type} [DecidableEq α] (l : List α) : l.eraseDups.Nodup := by
  match l with
  | [] => exact List.nodup_nil
  | a :: l =>
    have shorter : (l.filter fun b => !b == a).length < l.length + 1 := Nat.lt_succ_of_le (List.length_filter_le _ l)
    rw [List.eraseDups_cons, List.nodup_cons]
    exact ⟨by simp [List.mem_eraseDups], nodup_eraseDups _⟩
termination_by l.length

theorem tickOrder_nodup (named : List TickEvent) : (tickOrder named).Nodup := by
  have default : defaultOrder.Nodup := by decide
  unfold tickOrder
  refine List.nodup_append.mpr ⟨nodup_eraseDups named, default.filter _, fun a ha b hb same => ?_⟩
  rw [← same, List.mem_filter] at hb
  simp [List.mem_eraseDups.mp ha] at hb

theorem scan_mem_tickOrder (named : List TickEvent) : .scan ∈ tickOrder named := by
  unfold tickOrder
  by_cases h : TickEvent.scan ∈ named
  · exact List.mem_append_left _ (List.mem_eraseDups.mpr h)
  · exact List.mem_append_right _ (List.mem_filter.mpr ⟨by decide, by simpa using h⟩)

/-- Every tick brings one scan, whatever events the command names. -/
theorem tickOrder_scans_once (named : List TickEvent) : ∃ before after, tickOrder named = before ++ .scan :: after
    ∧ TickEvent.scan ∉ before ∧ TickEvent.scan ∉ after := by
  obtain ⟨before, after, split⟩ := List.append_of_mem (scan_mem_tickOrder named)
  have once := tickOrder_nodup named
  rw [split, List.nodup_append, List.nodup_cons] at once
  obtain ⟨-, ⟨outside, -⟩, disjoint⟩ := once
  exact ⟨before, after, split, fun h => disjoint _ h _ List.mem_cons_self rfl, outside⟩

/-! ### What the events besides the scan leave -/

/-- The boards, and every line's settings and driven level, stand. -/
structure State.SceneStands (s t : State) : Prop where
  boards : t.lines.boards = s.lines.boards
  points : s.PointsStand t

theorem State.SceneStands.refl (s : State) : s.SceneStands s := ⟨rfl, .refl s⟩

theorem State.SceneStands.trans (h : s.SceneStands t) (k : t.SceneStands u) : s.SceneStands u :=
  ⟨k.boards.trans h.boards, h.points.trans k.points⟩

theorem State.stands_events (capture : Capture) (a b : Bool) (es : List TickEvent) (s : State) (h : TickEvent.scan ∉ es) :
    s.SceneStands (es.foldl (State.tickEvent capture a b) s) := by
  induction es generalizing s with
  | nil => exact .refl s
  | cons e es ih =>
    obtain ⟨first, rest⟩ := not_or.mp (mt List.mem_cons.mpr h)
    have one : s.SceneStands (State.tickEvent capture a b s e) :=
      ⟨(s.keeps_tickEvent capture a b e (Ne.symm first)).boards, s.points_tickEvent capture a b e (Ne.symm first)⟩
    exact one.trans (ih _ rest)

theorem State.stands_scan (s : State) (capture : Capture) : (s.afterScan capture).SceneStands (s.scan capture) := by
  rw [State.scan_eq]
  exact ⟨(State.keeps_deliveries _).boards, .forEach (fun l s => s.points_deliverLine l) _⟩

theorem State.stands_takeDue (s : State) : s.SceneStands s.takeDue := ⟨s.keeps_takeDue.boards, s.points_takeDue⟩

/-- What a tick leaves of the boards and the points: its one scan's doing. -/
theorem State.tick_stands (s : State) (capture : Capture) (order : List TickEvent) :
    ∃ v, s.SceneStands v ∧ (v.afterScan capture).SceneStands (s.tick capture order) := by
  obtain ⟨before, after, split, early, late⟩ := tickOrder_scans_once order
  have due := s.stands_takeDue
  unfold State.tick; dsimp only
  rw [split, List.foldl_append, List.foldl_cons]
  generalize s.takeDue = t at due
  have advanced : t.SceneStands { t with clock := t.clock.advance } := ⟨rfl, .of_lines rfl⟩
  have first := State.stands_events capture t.clock.secondNext t.clock.minuteNext before { t with clock := t.clock.advance } early
  generalize before.foldl (State.tickEvent capture t.clock.secondNext t.clock.minuteNext) { t with clock := t.clock.advance } = v
    at first
  exact ⟨v, (due.trans advanced).trans first, (v.stands_scan capture).trans (State.stands_events _ _ _ _ _ late)⟩

theorem State.exec_tick (h : s.power = .running) (capture : Capture) (order : List TickEvent) :
    exec (.tick capture order) s = .next (s.tick capture order) := s.run_running h (·.tick capture order)

theorem Clock.advance_eq (k : Clock) : k.advance = if k.tick + 1 < 16 then { k with tick := k.tick + 1 }
    else { k with tick := 0, weekSecond := if k.weekSecond + 1 < 604800 then k.weekSecond + 1 else 0 } := rfl

theorem Line.scanned_driven_none (x : Line) (present : Bool) :
    (x.scanned present).driven = none ↔ present = false ∨ x.config.mode = .input := by
  unfold Line.scanned; dsimp only
  cases present <;> cases x.config.mode <;> simp

/-! ### A tick that finds nothing due -/

/-- Nothing waits that a tick would take first. -/
def State.NothingDue (s : State) : Prop := s.owed = [] ∧ ∀ d, s.doorDue d = none ∧ s.trailerDue d = none

theorem State.NothingDue.takeDue (h : s.NothingDue) : s.takeDue = s := by
  obtain ⟨owed, due⟩ := h
  have settled (l : List (Fin 32)) : l.foldl (fun t d => (State.settleDoor t d).settleTrailer d) s = s := by
    induction l with
    | nil => rfl
    | cons d l ih =>
      have door : s.settleDoor d = s := by unfold State.settleDoor; rw [(due d).1]
      have trailer : s.settleTrailer d = s := by unfold State.settleTrailer; rw [(due d).2]
      rw [List.foldl_cons, door, trailer, ih]
  have taken : s.takeSettlements = s := settled _
  unfold State.takeDue; dsimp only
  rw [taken, owed]
  exact congrArg (fun x => { s with owed := x }) owed.symm

/-- The tick's events alone, in the order taken where none is named. -/
theorem State.NothingDue.tick (h : s.NothingDue) (capture : Capture) : s.tick capture []
    = defaultOrder.foldl (State.tickEvent capture s.clock.secondNext s.clock.minuteNext)
        { s with clock := s.clock.advance } := by
  have order : tickOrder [] = defaultOrder := by decide
  unfold State.tick; dsimp only
  rw [h.takeDue, order]

/-- Within a second a tick's other events do nothing. -/
theorem State.tickEvent_within (capture : Capture) (s : State) {e : TickEvent} (scan : e ≠ .scan) (due : e ≠ .takeDue) :
    State.tickEvent capture false false s e = s := by
  cases e with
  | scan => exact absurd rfl scan
  | takeDue => exact absurd rfl due
  | _ => simp only [State.tickEvent, Bool.false_eq_true, if_false]

theorem State.tickEvents_within (capture : Capture) (es : List TickEvent) (s : State) (scan : TickEvent.scan ∉ es)
    (due : TickEvent.takeDue ∉ es) : es.foldl (State.tickEvent capture false false) s = s := by
  induction es with
  | nil => rfl
  | cons e es ih =>
    obtain ⟨first, rest⟩ := not_or.mp (mt List.mem_cons.mpr scan)
    obtain ⟨first', rest'⟩ := not_or.mp (mt List.mem_cons.mpr due)
    rw [List.foldl_cons, s.tickEvent_within capture (Ne.symm first) (Ne.symm first'), ih rest rest']

theorem defaultOrder_within_second (s : State) (capture : Capture) :
    defaultOrder.foldl (State.tickEvent capture false false) s = s.scan capture := by
  have others := State.tickEvents_within capture defaultOrder.tail (s.scan capture) (by decide) (by decide)
  have first : defaultOrder = .scan :: defaultOrder.tail := rfl
  rw [first, List.foldl_cons]
  unfold State.tickEvent at others ⊢
  exact others

theorem defaultOrder_second (s : State) (capture : Capture) (minute : Bool) :
    defaultOrder.foldl (State.tickEvent capture true minute) s = Claims.secondDelivered (s.scan capture) minute := by
  unfold Claims.secondDelivered defaultOrder
  cases minute <;> simp only [List.foldl_cons, List.foldl_nil, State.tickEvent, if_true, Bool.false_eq_true, if_false]

theorem tickAdvances_spec : Claims.TickAdvances := by
  intro s capture order running
  refine ⟨⟨s.tick capture order, State.exec_tick running capture order, ?_⟩, fun owed due within none => ?_⟩
  · obtain ⟨v, before, after⟩ := s.tick_stands capture order
    obtain ⟨t, u, kept, hu, events⟩ := s.tick_spec capture order
    have clock : (s.tick capture order).clock = s.clock.advance := events.clock.trans (by rw [hu])
    have pending : (s.tick capture order).pending = s.pending := events.pending.trans (by rw [hu]; exact kept.pending)
    have power : (s.tick capture order).power = .running :=
      events.power.trans (by rw [hu]; exact kept.power.trans running)
    generalize s.tick capture order = w at after clock pending power
    refine ⟨clock.trans s.clock.advance_eq, pending, power, fun l => ?_, fun b => ?_⟩
    · have line : (v.afterScan capture).lines.lines.get l
          = (v.lines.lines.get l).scanned (v.lines.boards.get (boardOf l)).present := Table.get_mapIdx _ _ _
      rw [(after.points l).2, line, Line.scanned_driven_none, before.boards, (before.points l).1]
    · have board : (v.afterScan capture).lines.boards.get b = (v.lines.boards.get b).scanned (capture.get b) :=
        Table.get_mapIdx _ _ _
      rw [after.boards, board, before.boards]
      rfl
  · subst none
    have second : s.clock.secondNext = false := decide_eq_false (by unfold Config.ticksPerSecond; omega)
    have minute : s.clock.minuteNext = false := by unfold Clock.minuteNext; rw [second, Bool.false_and]
    have clock : s.clock.advance = { s.clock with tick := s.clock.tick + 1 } := if_pos within
    rw [State.exec_tick running, State.NothingDue.tick ⟨owed, due⟩, second, minute, clock, defaultOrder_within_second]

theorem tickBringsBoundaries_spec : Claims.TickBringsBoundaries := by
  intro s capture w running owed due boundary hw
  have second : s.clock.secondNext = true := decide_eq_true boundary
  have clock : s.clock.advance = { s.clock with tick := 0, weekSecond := w } := by
    rw [hw, Clock.advance_eq, if_neg (by omega)]
  have minute : s.clock.minuteNext = decide (w % 60 = 0) := by
    unfold Clock.minuteNext
    rw [second, clock, Bool.true_and]
    rfl
  rw [State.exec_tick running, State.NothingDue.tick ⟨owed, due⟩, second, minute, clock, defaultOrder_second]

theorem scanDrivesAndDelivers_spec : Claims.ScanDrivesAndDelivers := by
  intro s u capture hu
  have scanned : u = s.afterScan capture := hu
  have stands := s.stands_scan capture
  rw [State.scan_eq] at stands ⊢
  rw [← scanned] at stands ⊢
  exact ⟨rfl, stands.boards, fun l => (stands.points l).2⟩

end Sys2Proof.Machine
end

section
/-! SUPPORT. What a second boundary, a minute boundary and a delivered level do to a record (R14, R15, R41 to R50, R53, R57, R74,
R88, R108, R126, R138), and the settlement of the tick. -/

namespace Sys2Proof.Machine

variable {s t : State}

/-! ### A second boundary delivered -/

theorem State.deliverSecond_owed {x : SecondOf} (h : s.bringsEvent x = true) :
    s.deliverSecond x = { s with owed := s.owed ++ [x] } := if_pos h

theorem State.deliverSecond_taken {x : SecondOf} (h : s.bringsEvent x = false) : s.deliverSecond x = s.secondFor x :=
  if_neg (by rw [h]; exact Bool.false_ne_true)

/-! ### Doors (R43, R47, R48, R49, R180) -/

@[simp] theorem State.channel_setChannel (s : State) (d : Fin 32) (x : Channel) : (s.setChannel d x).channel d = x :=
  Table.get_set_same _ _ _

@[simp] theorem State.setChannel_setChannel (s : State) (d : Fin 32) (x y : Channel) :
    (s.setChannel d x).setChannel d y = s.setChannel d y := by
  unfold State.setChannel; dsimp only; rw [Table.set_set]

theorem State.holdingOpen_iff (s : State) (d : Fin 32) : s.holdingOpen d = true ↔ (s.channel d).state = .opened
    ∧ (s.paramsOf s.phase).longOpen ≠ 0
    ∧ 60 * (s.paramsOf s.phase).longOpen ≤ min 65535 ((s.channel d).interval + 1) := by
  unfold State.holdingOpen; dsimp only
  rw [Bool.and_eq_true, beq_iff_eq, State.reachesLimit_iff]
  rfl

/-- The second of a door that has not reached the limit. -/
theorem State.deliverSecond_door {d : Fin 32} (used : (s.channel d).state ≠ .unused) (below : ¬ s.holdingOpen d = true) :
    s.deliverSecond (.door d)
      = (s.setChannel d { s.channel d with interval := min 65535 ((s.channel d).interval + 1) }).openSecond d := by
  have taken := State.deliverSecond_taken (x := .door d) (Bool.eq_false_iff.mpr below)
  have second : s.secondFor (.door d) = s.doorSecond d := rfl
  rw [taken, second]
  unfold State.doorSecond; dsimp only
  rw [if_neg used]
  refine congrArg (fun u => State.openSecond u d) ?_
  rw [State.compareDoor_eq, State.channel_setChannel]
  refine if_neg fun reached => below ((s.holdingOpen_iff d).mpr ⟨reached.1, ?_⟩)
  exact (State.reachesLimit_of_calendar (s := s) rfl).mp reached.2

theorem State.openSecond_shut {d : Fin 32} (h : (s.channel d).isOpen = false) : s.openSecond d = s := by
  unfold State.openSecond; dsimp only
  rw [h]
  exact if_neg Bool.false_ne_true

theorem State.openSecond_open {d : Fin 32} (h : (s.channel d).isOpen = true) (y : Channel)
    (hy : y = { s.channel d with openSeconds := min 4294967295 ((s.channel d).openSeconds + 1)
                                 longest := max (s.channel d).longest (s.channel d).interval }) :
    s.openSecond d = match (s.channel d).config.zone with
      | none => s.setChannel d y
      | some z => ((s.setChannel d y).addOpenSecond z).creditZone z 0 1 := by
  unfold State.openSecond; dsimp only
  rw [if_pos h, hy]
  rfl

theorem doorsTakeSeconds_spec : Claims.DoorsTakeSeconds := by
  intro s d x y n hx hn hy
  subst hx
  refine ⟨fun unused => ?_, fun closed => ?_, fun opened limited reached => ?_, fun standing => ?_⟩
  · have not : s.holdingOpen d = false :=
      Bool.eq_false_iff.mpr fun h => by have ⟨opened, _⟩ := (s.holdingOpen_iff d).mp h; rw [unused] at opened; cases opened
    rw [State.deliverSecond_taken (x := .door d) not]
    exact if_pos unused
  · have not : ¬ s.holdingOpen d = true :=
      fun h => by have ⟨opened, _⟩ := (s.holdingOpen_iff d).mp h; rw [closed] at opened; cases opened
    rw [State.deliverSecond_door (by rw [closed]; decide) not, ← hn]
    exact State.openSecond_shut (by simp [Channel.isOpen, closed])
  · exact State.deliverSecond_owed (x := .door d) ((s.holdingOpen_iff d).mpr ⟨opened, limited, hn ▸ reached⟩)
  · have used : (s.channel d).state ≠ .unused := by rcases standing with h | ⟨h, -⟩ <;> rw [h] <;> decide
    have isOpen : (s.channel d).isOpen = true := by rcases standing with h | ⟨h, -⟩ <;> simp [Channel.isOpen, h]
    have below : ¬ s.holdingOpen d = true := by
      rw [State.holdingOpen_iff, ← hn]
      rintro ⟨opened, limited, reached⟩
      rcases standing with held | ⟨-, free | under⟩
      · rw [opened] at held; cases held
      · exact limited free
      · omega
    have taken := State.deliverSecond_door used below
    rw [← hn, State.openSecond_open (d := d) (by rw [State.channel_setChannel]; exact isOpen) y (by
      rw [State.channel_setChannel]; exact hy)] at taken
    rw [State.channel_setChannel, State.setChannel_setChannel] at taken
    refine ⟨fun zoneless => ?_, fun z zone => ?_⟩
    · rw [taken]; dsimp only; rw [zoneless]
    · rw [taken]; dsimp only; rw [zone] <;> rfl

/-! ### The other records -/

theorem curtainTakesSecond (s : State) (c : Fin 16) (x : Curtain) (hx : x = s.doors.curtains.get c) :
    (x.state ≠ .runOn ∨ x.remaining = none → s.deliverSecond (.curtain c) = s)
    ∧ ∀ n, x.state = .runOn → x.remaining = some n →
      (n ≤ 1 → s.deliverSecond (.curtain c) = { s with owed := s.owed ++ [.curtain c] })
      ∧ (1 < n → s.deliverSecond (.curtain c) = s.setCurtain c { x with remaining := some (n - 1) }) := by
  have brings : s.bringsEvent (.curtain c) = (x.state == .runOn && x.remaining.any fun n => n ≤ 1) := by subst hx; rfl
  have taken : s.secondFor (.curtain c) = s.curtainSecond c := rfl
  unfold State.curtainSecond at taken; dsimp only at taken
  rw [← hx] at taken
  refine ⟨fun idle => ?_, fun n running left => ⟨fun ends => ?_, fun counts => ?_⟩⟩
  · rw [State.deliverSecond_taken (by rw [brings]; rcases idle with h | h <;> simp [h]), taken]
    split
    · next running left =>
      rcases idle with h | h
      · exact absurd running h
      · rw [left] at h; cases h
    · rfl
  · exact State.deliverSecond_owed (by rw [brings, running, left]; simpa using ends)
  · rw [State.deliverSecond_taken (by rw [brings, running, left]; simpa using counts), taken, running, left]
    exact if_neg (by omega)

/-- The entry of a door in a forecast table with at most one for each door. -/
theorem State.forecastOf_eq (b : s.Bounded) {f : Forecast} (h : f ∈ s.doors.forecasts) : s.forecastOf f.door = some f := by
  have once := b.oneEach
  unfold State.forecastOf
  generalize s.doors.forecasts = l at h once
  induction l with
  | nil => cases h
  | cons e l ih =>
    rw [List.map_cons, List.nodup_cons] at once
    rcases List.mem_cons.mp h with rfl | tail
    · simp
    · have other : e.door ≠ f.door := fun same => once.1 (same ▸ List.mem_map_of_mem tail)
      rw [List.find?_cons_of_neg (by simpa using other)]
      exact ih tail once.2

theorem forecastTakesSecond (s : State) (d : Fin 32) (b : s.Bounded) :
    ((∀ f ∈ s.doors.forecasts, f.door ≠ d) → s.deliverSecond (.forecast d) = s)
    ∧ ∀ f ∈ s.doors.forecasts, f.door = d →
      (f.seconds ≤ 1 → s.deliverSecond (.forecast d) = { s with owed := s.owed ++ [.forecast d] })
      ∧ (1 < f.seconds → s.deliverSecond (.forecast d) = { s with doors := { s.doors with
          forecasts := s.doors.forecasts.map fun e => if e.door = d then { e with seconds := e.seconds - 1 } else e } }) := by
  have brings : s.bringsEvent (.forecast d) = (s.forecastOf d).any fun f => f.seconds ≤ 1 := rfl
  have taken : s.secondFor (.forecast d) = s.forecastSecond d := rfl
  unfold State.forecastSecond at taken
  refine ⟨fun absent => ?_, fun f hf hd => ⟨fun ends => ?_, fun counts => ?_⟩⟩
  · have none : s.forecastOf d = none := List.find?_eq_none.mpr fun f hf => by simpa using absent f hf
    have same : (s.doors.forecasts.filterMap fun f =>
        if f.door = d then (if f.seconds ≤ 1 then Option.none else some { f with seconds := f.seconds - 1 }) else some f)
        = s.doors.forecasts :=
      (List.filterMap_congr fun f hf => by rw [if_neg (absent f hf)]).trans List.filterMap_some
    rw [State.deliverSecond_taken (by rw [brings, none]; rfl), taken, same]
  · exact State.deliverSecond_owed (by rw [brings, ← hd, State.forecastOf_eq b hf]; simpa using ends)
  · have same : (s.doors.forecasts.filterMap fun f =>
        if f.door = d then (if f.seconds ≤ 1 then Option.none else some { f with seconds := f.seconds - 1 }) else some f)
        = s.doors.forecasts.map fun e => if e.door = d then { e with seconds := e.seconds - 1 } else e := by
      rw [← List.filterMap_eq_map]
      refine List.filterMap_congr fun e he => ?_
      by_cases own : e.door = d
      · have ef : e = f := Option.some_injective _ (by
          rw [← State.forecastOf_eq b he, ← State.forecastOf_eq b hf, own, hd])
        have later : ¬ e.seconds ≤ 1 := by rw [ef]; omega
        simp [own, later]
      · simp [own]
    rw [State.deliverSecond_taken (by rw [brings, ← hd, State.forecastOf_eq b hf]; simpa using counts), taken, same]

/-- What a comparison with the limits changes. -/
theorem agedStatus_ne_iff (stale degrade age : Nat) (x : NodeStatus) : agedStatus stale degrade x age ≠ x ↔
    (x = .fresh ∨ x = .suspect) ∧ (stale ≤ age ∨ degrade ≤ age) ∨ x = .held ∧ degrade ≤ age := by
  cases x with
  | fresh => simp only [agedStatus]; split_ifs <;> simp_all
  | suspect => simp only [agedStatus]; split_ifs <;> simp_all
  | held => simp only [agedStatus]; split_ifs <;> simp_all
  | lost => simp [agedStatus]
  | unconfigured => simp [agedStatus]

/-- A node whose status the limits leave. -/
theorem State.compareNode_stays {n : Fin 16} {x : Node} (yes : x.config.configured = true)
    (stays : agedStatus s.sensors.stale s.sensors.degrade x.status x.age = x.status) :
    (s.setNode n x).compareNode n = s.setNode n x := by
  have row : (s.setNode n x).sensors.nodes.get n = x := Table.get_set_same _ _ _
  unfold State.compareNode; dsimp only
  rw [row, if_pos yes]
  have settled : agedStatus (s.setNode n x).sensors.stale (s.setNode n x).sensors.degrade x.status x.age = x.status := stays
  rw [settled]
  unfold State.raiseIf
  rw [if_neg (by simp)]
  unfold State.setNode; dsimp only
  rw [Table.set_set]

theorem nodeTakesSecond (s : State) (n : Fin 16) (x : Node) (age : Nat) (ends : Prop) (hx : x = s.sensors.nodes.get n)
    (hage : age = min 65535 (x.age + 1))
    (hends : ends ↔ (x.status = .fresh ∨ x.status = .suspect) ∧ (s.sensors.stale ≤ age ∨ s.sensors.degrade ≤ age)
      ∨ x.status = .held ∧ s.sensors.degrade ≤ age) :
    (x.config.configured = false → s.deliverSecond (.node n) = s)
    ∧ (x.config.configured = true →
      (ends → s.deliverSecond (.node n) = { s with owed := s.owed ++ [.node n] })
      ∧ (¬ ends → s.deliverSecond (.node n) = s.setNode n { x with age := age })) := by
  rw [← agedStatus_ne_iff] at hends
  have brings : s.bringsEvent (.node n) = (s.nodeNext n != x.status) := by rw [hx]; rfl
  have taken : s.secondFor (.node n) = (s.setNode n x.older).compareNode n := by rw [hx]; rfl
  unfold State.nodeNext at brings; dsimp only at brings
  rw [← hx] at brings
  refine ⟨fun no => ?_, fun yes => ?_⟩
  · have older : x.older = x := by unfold Node.older; rw [no]; exact if_neg Bool.false_ne_true
    have same : s.setNode n x = s := by unfold State.setNode; rw [hx, Table.set_get]
    rw [older, no] at brings
    rw [State.deliverSecond_taken (brings.trans (by simp)), taken, older, same]
    unfold State.compareNode; dsimp only
    rw [← hx, no]
    exact if_neg Bool.false_ne_true
  · have older : x.older = { x with age := age } := by unfold Node.older; rw [yes, if_pos rfl, hage]; rfl
    rw [older] at brings
    rw [yes, if_pos rfl] at brings
    refine ⟨fun h => ?_, fun h => ?_⟩
    · exact State.deliverSecond_owed (brings.trans (bne_iff_ne.mpr (hends.mp h)))
    · have stays : agedStatus s.sensors.stale s.sensors.degrade x.status age = x.status := not_not.mp (mt hends.mpr h)
      rw [State.deliverSecond_taken (brings.trans (by rw [stays]; simp)), taken, older]
      exact State.compareNode_stays yes stays

theorem overrideTakesSecond (s : State) (o : Option Override) (ho : o = s.calendar.record.override) :
    ((o.bind Override.remaining) = none → s.deliverSecond .override = s)
    ∧ ∀ n, o.bind Override.remaining = some n →
      (n ≤ 1 → s.deliverSecond .override = { s with owed := s.owed ++ [.override] })
      ∧ (1 < n → s.deliverSecond .override = { s with calendar := { s.calendar with record := { s.calendar.record with
          override := some ⟨some (n - 1)⟩ } } }) := by
  have brings : s.bringsEvent .override = s.overrideEnding := rfl
  have taken : s.secondFor .override = s.overrideSecond := rfl
  unfold State.overrideEnding at brings
  unfold State.overrideSecond at taken
  rw [← ho] at brings taken
  rcases o with _ | ⟨_ | n⟩
  · exact ⟨fun _ => (State.deliverSecond_taken brings).trans taken, fun _ h => nomatch h⟩
  · exact ⟨fun _ => (State.deliverSecond_taken brings).trans taken, fun _ h => nomatch h⟩
  · refine ⟨(nomatch ·), fun m hm => ?_⟩
    obtain rfl : n = m := Option.some_injective _ hm
    exact ⟨fun ends => State.deliverSecond_owed (brings.trans (decide_eq_true ends)), fun counts =>
      (State.deliverSecond_taken (brings.trans (decide_eq_false (by omega)))).trans (taken.trans (if_neg (by omega)))⟩

theorem capTakesSecond (s : State) (o : Option SupervisorCap) (ho : o = s.budget.supCap) :
    ((o.bind SupervisorCap.remaining) = none → s.deliverSecond .cap = s)
    ∧ ∀ units n, o = some ⟨units, some n⟩ →
      (n ≤ 1 → s.deliverSecond .cap = { s with owed := s.owed ++ [.cap] })
      ∧ (1 < n → s.deliverSecond .cap = { s with budget := { s.budget with supCap := some ⟨units, some (n - 1)⟩ } }) := by
  have brings : s.bringsEvent .cap = s.capEnding := rfl
  have taken : s.secondFor .cap = s.capSecond := rfl
  unfold State.capEnding at brings
  unfold State.capSecond at taken
  rw [← ho] at brings taken
  rcases o with _ | ⟨units, _ | n⟩
  · exact ⟨fun _ => (State.deliverSecond_taken brings).trans taken, fun _ _ h => nomatch h⟩
  · exact ⟨fun _ => (State.deliverSecond_taken brings).trans taken, fun _ _ h => nomatch h⟩
  · refine ⟨(nomatch ·), fun units' m hm => ?_⟩
    cases hm
    exact ⟨fun ends => State.deliverSecond_owed (brings.trans (decide_eq_true ends)), fun counts =>
      (State.deliverSecond_taken (brings.trans (decide_eq_false (by omega)))).trans (taken.trans (if_neg (by omega)))⟩

/-- A stage's time one second on, for the stages a zone has. -/
theorem ZoneGrant.time_aged (g : ZoneGrant) {i : Nat} (h : i ≤ 4) :
    ZoneGrant.time { g with times := g.times.map fun t => min 65535 (t + 1) } i = min 65535 (g.time i + 1) := by
  unfold ZoneGrant.time nth1 Table.map
  have size := g.times.size
  have inside : i - 1 < g.times.rows.length := by omega
  rw [← List.map_drop, List.drop_eq_getElem_cons inside]
  rfl

theorem stagesTakeSecond (s : State) (z : Fin 8) (g : ZoneGrant) (ends : Prop) (hg : g = s.budget.zones.get z)
    (four : g.heat ≤ 4)
    (hends : ends ↔ (s.budget.demandOf z).heat < g.heat ∧ s.budget.minOn ≤ min 65535 (g.time g.heat + 1)) :
    (ends → s.deliverSecond (.stages z) = { s with owed := s.owed ++ [.stages z] })
    ∧ (¬ ends → s.deliverSecond (.stages z) = s.setGrant z { g with times := g.times.map fun t => min 65535 (t + 1) }) := by
  have aged : s.ageStages z = s.setGrant z { g with times := g.times.map fun t => min 65535 (t + 1) } := by rw [hg]; rfl
  have gone : (s.ageStages z).budget.requestGone z = true ↔ ends := by
    have row : (s.ageStages z).budget.zones.get z = { g with times := g.times.map fun t => min 65535 (t + 1) } := by
      rw [aged]; exact Table.get_set_same _ _ _
    unfold Allocator.requestGone; dsimp only
    rw [row, ZoneGrant.time_aged g four, hends, aged, Bool.and_eq_true, decide_eq_true_iff, decide_eq_true_iff]
    rfl
  have taken : s.secondFor (.stages z) = (s.ageStages z).stageCheck z := rfl
  refine ⟨fun h => State.deliverSecond_owed (gone.mpr h), fun h => ?_⟩
  rw [State.deliverSecond_taken (x := .stages z) (Bool.eq_false_iff.mpr (mt gone.mp h)), taken, ← aged]
  unfold State.stageCheck; dsimp only
  exact if_neg (mt gone.mp h)

theorem State.lightEnding_iff (s : State) : s.lightEnding = true ↔
    ∃ g, (s.lighting.groups.get g).state = .lit ∧ (s.lighting.groups.get g).hold = some 1
      ∨ ∃ v, (s.lighting.groups.get g).override = some v ∧ v.seconds ≤ 1 := by
  simp only [State.lightEnding, List.any_eq_true, indices, List.mem_finRange, true_and, Bool.or_eq_true,
    Group.overrideEnding, Group.holdEnding, Option.any_eq_true, Bool.and_eq_true, beq_iff_eq, decide_eq_true_iff]
  exact exists_congr fun g => or_comm

theorem recordsTakeSeconds_spec : Claims.RecordsTakeSeconds := by
  refine ⟨curtainTakesSecond, forecastTakesSecond, nodeTakesSecond, overrideTakesSecond, capTakesSecond, stagesTakeSecond,
    fun s ends hends => ?_, fun s => ?_⟩
  · rw [← State.lightEnding_iff] at hends
    exact ⟨fun h => State.deliverSecond_owed (hends.mp h), fun h =>
      State.deliverSecond_taken (Bool.eq_false_iff.mpr (mt hends.mpr h))⟩
  · refine ⟨fun h => State.deliverSecond_owed (x := .cycle) (decide_eq_true h), fun h => ?_⟩
    rw [State.deliverSecond_taken (x := .cycle) (decide_eq_false (Nat.not_le.mpr h))]
    exact if_neg (by omega)

/-! ### Minute boundaries (R2, R14, R21, R49, R50) -/

theorem PhaseRecord.not_overridden {r : PhaseRecord} (forced : r.source ≠ .forced) (extended : r.source ≠ .extended) :
    r.overridden = false := Bool.eq_false_iff.mpr fun h => (r.overridden_iff.mp h).elim forced extended

theorem Table.rows_eq {n : Nat} {α : Type} (x : Table n α) : x.rows = (indices n).map x.get := by
  refine List.ext_getElem (by simp [indices, x.size]) fun i _ _ => ?_
  simp [indices, Table.get_eq]

theorem State.trailerCount_eq (s : State) (z : Fin 8) : s.trailerCount z
    = ((indices 32).filter fun d => (s.channel d).config.configured ∧ (s.channel d).config.zone = some z
        ∧ (s.channel d).trailer).length := by
  unfold State.trailerCount State.channel
  rw [Table.rows_eq, List.filter_map, List.length_map]
  refine congrArg List.length (List.filter_congr fun d _ => ?_)
  rw [Bool.eq_iff_iff]
  simp [and_assoc]

theorem State.forecastMark_iff (s : State) (z : Fin 8) : s.forecastMark z = true ↔
    ∃ f ∈ s.doors.forecasts, (s.channel f.door).config.zone = some z := by
  simp [State.forecastMark, List.any_eq_true]

theorem State.ringMinute_rows (s : State) (z : Fin 8) : (s.ringMinute.doors.rings.get z).current = 0
    ∧ (s.ringMinute.doors.rings.get z).completed.rows
      = (s.doors.rings.get z).completed.rows.drop 1 ++ [(s.doors.rings.get z).current] := by
  have ring : s.ringMinute.doors.rings.get z = ⟨0, (s.doors.rings.get z).completed.shiftIn (s.doors.rings.get z).current⟩ :=
    Table.get_map _ _ _
  rw [ring]
  exact ⟨rfl, by rw [List.drop_one]; rfl⟩

theorem minuteBoundaries_spec : Claims.MinuteBoundaries := by
  refine ⟨fun s => ⟨fun h => ?_, fun h => ?_⟩,
    fun s => ⟨fun h => ?_, fun running forced extended => ⟨fun e he => ?_, fun h => ?_⟩⟩, fun s => ⟨rfl, s.ringMinute_rows⟩,
    fun s z => ⟨rfl, s.trailerCount_eq z, s.forecastMark_iff z⟩, fun s z current slots => ?_⟩
  · unfold State.clockMinute State.raiseIf; rw [h]; exact if_neg (by decide)
  · unfold State.clockMinute State.raiseIf; rw [h]; exact if_pos rfl
  · exact State.calendarMinute_idle (h.imp_right (PhaseRecord.overridden_iff _).mpr)
  · exact State.calendarMinute_match running (PhaseRecord.not_overridden forced extended) he
  · exact State.calendarMinute_lead running (PhaseRecord.not_overridden forced extended) h
  · obtain ⟨-, rows⟩ := s.ringMinute_rows z
    unfold State.openTime Table.sum
    rw [rows, slots, current]
    decide

/-! ### Delivered levels (R41, R42, R148, R149, R152) -/

theorem Channel.isOpen_eq (x : Channel) : x.isOpen = decide (x.state = .opened ∨ x.state = .held) := by
  unfold Channel.isOpen
  cases x.state <;> rfl

/-- A pending change after a scan, by the settled level: none yet, the level delivered, or the other. -/
theorem scanPending_eq (settled : Option Bool) (debounce : Nat) (pending : Option Pending) (level : Bool) :
    scanPending settled debounce pending level = match settled with
      | none => match pending with
        | some p => if p.level = level then some ⟨level, p.ticks - 1⟩ else some ⟨level, debounce⟩
        | none => some ⟨level, debounce⟩
      | some l => if level = l then
          match pending with
          | some p => if p.level = level then some ⟨level, p.ticks - 1⟩ else none
          | none => none
        else
          match pending with
          | some p => if p.level = level then some ⟨level, p.ticks - 1⟩ else none
          | none => some ⟨level, debounce⟩ := by
  rcases settled with _ | l
  · rcases pending with _ | ⟨held, ticks⟩
    · rfl
    · by_cases same : held = level
      · subst same; simp [scanPending]
      · simp [scanPending, same]
  · rcases pending with _ | ⟨held, ticks⟩
    · rfl
    · by_cases same : held = level
      · subst same; simp [scanPending]
      · simp [scanPending, same]

theorem State.deliverDoor_eq (s : State) (d : Fin 32) (level : Bool) (h : (s.channel d).config.configured = true)
    (p : Option Pending)
    (hp : scanPending (s.channel d).doorSettled (s.channel d).config.doorDebounce (s.channel d).doorPending level = p) :
    s.deliverDoor d level = s.setChannel d { s.channel d with doorPending := p } := by
  subst hp; exact if_pos h

theorem State.deliverTrailer_eq (s : State) (d : Fin 32) (level : Bool) (h : (s.channel d).config.configured = true)
    (p : Option Pending)
    (hp : scanPending (s.channel d).trailerLevel (s.channel d).config.trailerDebounce (s.channel d).trailerPending level = p) :
    s.deliverTrailer d level = s.setChannel d { s.channel d with trailerPending := p } := by
  subst hp; exact if_pos h

theorem Lines.active_eq (x : Lines) (l : Fin 192) : x.active l = match (x.board l).captured with
    | some q => q.getLsbD (l.val % 32) != (x.lines.get l).config.invert
    | none => false := by
  unfold Lines.active pointOf
  cases (x.board l).captured <;> rfl

theorem scanDebounces_spec : Claims.ScanDebounces := by
  refine ⟨fun s d level x hx => ⟨fun no => ?_, fun yes => ⟨?_, ?_⟩⟩,
    fun s l x b hx hb => ⟨fun silent => ?_, fun input present active ha => ?_⟩⟩
  · subst hx
    have not : ¬ (s.channel d).config.configured = true := by rw [no]; exact Bool.false_ne_true
    exact ⟨if_neg not, if_neg not⟩
  · subst hx
    refine s.deliverDoor_eq d level yes _ ?_
    rw [scanPending_eq]
    unfold Channel.doorSettled
    rw [Channel.isOpen_eq]
    by_cases unused : (s.channel d).state = .unused
    · rw [if_pos unused, if_pos unused] <;> rfl
    · rw [if_neg unused, if_neg unused] <;> rfl
  · subst hx
    refine s.deliverTrailer_eq d level yes _ ?_
    rw [scanPending_eq]
    unfold Channel.trailerLevel
    by_cases first : (s.channel d).trailerSettled = true
    · rw [if_pos first, if_neg (by rw [first]; decide)] <;> rfl
    · rw [if_neg first, if_pos (Bool.eq_false_iff.mpr first)] <;> rfl
  · unfold State.deliverLine; dsimp only
    refine if_neg fun ⟨input, present⟩ => ?_
    have board : (s.lines.board l).present = b.present := by rw [hb]; rfl
    rw [← hx] at input
    rw [board] at present
    rcases silent with output | absent
    · rw [input] at output; cases output
    · rw [present] at absent; cases absent
  · have board : s.lines.board l = b := hb.symm
    have level : s.lines.active l = active := by rw [ha, Lines.active_eq, board, ← hx] <;> rfl
    unfold State.deliverLine; dsimp only
    rw [level, board, ← hx, if_pos ⟨input, present⟩]
    unfold State.deliver
    cases x.config.binding <;> rfl

/-- Settles O14: a tick takes what is due, advances the clock, and brings one scan and the boundaries; each record's second, the
minute's events and each delivery follow from the definitions of the blocks. -/
theorem tickAdvancesClockAndScans : Obligations.TickAdvancesClockAndScans :=
  ⟨tickAdvances_spec, tickBringsBoundaries_spec, doorsTakeSeconds_spec, recordsTakeSeconds_spec, minuteBoundaries_spec,
   scanDebounces_spec, scanDrivesAndDelivers_spec⟩

end Sys2Proof.Machine
end

section
/-! SUPPORT. The Load Allocator while no demand set has come and no curtain is wanted, as at a start-up: it grants lamp levels
alone, and nothing at all loads it while every lamp group rates 0 (R112, R114 to R124). -/

namespace Sys2Proof.Machine

variable {s t u : State}

/-! ### The invariant -/

/-- Nothing but lamp levels is granted, no demand set has come, no curtain is wanted; each level stands between its floor and
its request; and where the lamp groups rate 0 nothing is drawn, no pass has been made and the links are as given. -/
structure State.LampsAlone (i : LinkInterface) (s : State) : Prop where
  demand   : s.budget.demand = none
  zones    : ∀ z, s.budget.zones.get z = ZoneGrant.initial
  curtains : ∀ c, (s.doors.curtains.get c).state = .idle ∧ (s.doors.curtains.get c).granted = false
  levels   : ∀ g, (s.budget.groups.get g).floorRequest ≤ (s.budget.groups.get g).level
               ∧ (s.budget.groups.get g).level ≤ (s.budget.groups.get g).levelRequest
  latches  : ∀ l, (∀ z, (s.lines.lines.get l).config.binding ≠ .heat z 0
               ∧ (s.lines.lines.get l).config.binding ≠ .fan z 0) →
               (s.lines.lines.get l).latch = false
  unloaded : (∀ g, s.budget.ratings.groups.get g = 0) →
               s.budget.reserved = 0 ∧ s.budget.total = 0 ∧ s.budget.passes = 0 ∧ s.links = i

variable {i : LinkInterface}

theorem State.LampsAlone.of_eq (h : s.LampsAlone i) (budget : t.budget = s.budget) (curtains : t.doors.curtains = s.doors.curtains)
    (lines : t.lines.lines = s.lines.lines) (links : t.links = s.links) : t.LampsAlone i where
  demand := by rw [budget]; exact h.demand
  zones := by rw [budget]; exact h.zones
  curtains := by rw [curtains]; exact h.curtains
  levels := by rw [budget]; exact h.levels
  latches := by rw [lines]; exact h.latches
  unloaded := by rw [budget, links]; exact h.unloaded

/-! ### The latches (R153) -/

/-- A line as `followGrants` leaves it. -/
def Line.following (x : Line) (on : Option Bool) : Line :=
  match x.config.mode, on with
  | .output, some on => { x with latch := on }
  | _, _ => x

theorem State.followGrants_line (s : State) (l : Fin 192) : s.followGrants.lines.lines.get l
    = (s.lines.lines.get l).following (s.functionOn (s.lines.lines.get l).config.binding) := Table.get_map _ _ _

theorem Line.following_config (x : Line) (on : Option Bool) : (x.following on).config = x.config := by
  unfold Line.following; split <;> rfl

theorem Line.following_off (x : Line) {on : Option Bool} (off : on = none ∨ on = some false) (h : x.latch = false) :
    (x.following on).latch = false := by
  unfold Line.following
  rcases off with rfl | rfl <;> cases x.config.mode <;> simp [h]

theorem State.LampsAlone.functionOff (h : s.LampsAlone i) (b : Binding) (numbered : ∀ z, b ≠ .heat z 0 ∧ b ≠ .fan z 0) :
    s.functionOn b = none ∨ s.functionOn b = some false := by
  unfold State.functionOn
  cases b with
  | heat z n =>
    refine .inr (congrArg some (decide_eq_false fun on => ?_))
    rw [h.zones] at on
    obtain rfl : n = 0 := Nat.le_zero.mp on
    exact (numbered z).1 rfl
  | fan z n =>
    refine .inr (congrArg some (decide_eq_false fun on => ?_))
    rw [h.zones] at on
    obtain rfl : n = 0 := Nat.le_zero.mp on
    exact (numbered z).2 rfl
  | curtain c => exact .inr (congrArg some (h.curtains c).2)
  | _ => exact .inl rfl

theorem State.LampsAlone.followGrants (h : s.LampsAlone i) : s.followGrants.LampsAlone i where
  demand := h.demand
  zones := h.zones
  curtains := h.curtains
  levels := h.levels
  unloaded := h.unloaded
  latches l numbered := by
    rw [State.followGrants_line, Line.following_config] at numbered
    rw [State.followGrants_line]
    exact Line.following_off _ (h.functionOff _ numbered) (h.latches l numbered)

/-! ### The waiting curtains (R123) -/

theorem State.LampsAlone.retryCurtains (h : s.LampsAlone i) : s.retryCurtains.LampsAlone i := by
  have one (c : Fin 16) : s.tryCurtain c = s := by
    unfold State.tryCurtain; dsimp only
    exact if_neg fun waits => waits.1 (h.curtains c).1
  have all (l : List (Fin 16)) : l.foldl (fun t c => State.tryCurtain t c) s = s := by
    induction l with
    | nil => rfl
    | cons c l ih => rw [List.foldl_cons, one, ih]
  have still : (s.forEach 16 fun c t => t.tryCurtain c) = s := all _
  unfold State.retryCurtains
  rw [still]
  exact h.followGrants

/-! ### A pass (R115 to R121) -/

/-- Grants of lamp levels alone, each between its floor and the larger of floor and request. -/
structure Grants.Lamps (a : Allocator) (g : Grants) : Prop where
  heat     : ∀ z, g.heat.get z = 0
  fans     : ∀ z, g.fans.get z = 0
  curtains : ∀ c, g.curtains.get c = false
  levels   : ∀ x, (a.groups.get x).floorRequest ≤ g.levels.get x ∧ g.levels.get x ≤ (a.groups.get x).wanted

theorem State.LampsAlone.demandOf (h : s.LampsAlone i) (z : Fin 8) : s.budget.demandOf z = ZoneDemand.offEntry := by
  unfold Allocator.demandOf; rw [h.demand]

theorem ZoneGrant.committedNow_initial (minOn : Nat) : ZoneGrant.initial.committedNow minOn = 0 :=
  Nat.le_zero.mp (largestWhere_spec _ _).1

theorem State.LampsAlone.floorFansNow (h : s.LampsAlone i) (z : Fin 8) : s.budget.floorFansNow z = 0 := by
  unfold Allocator.floorFansNow; rw [h.demandOf]; rfl

theorem State.LampsAlone.reservedGrants (h : s.LampsAlone i) : Grants.Lamps s.budget s.budget.reservedGrants where
  heat z := (Table.get_map _ _ _).trans (by rw [h.zones, ZoneGrant.committedNow_initial])
  fans z := (Table.get_ofFn _ _).trans (h.floorFansNow z)
  curtains c := Table.get_fill _ _
  levels x := by
    have level : s.budget.reservedGrants.levels.get x = (s.budget.groups.get x).floorRequest := Table.get_map _ _ _
    rw [level]
    exact ⟨Nat.le_refl _, Nat.le_max_left _ _⟩

theorem State.LampsAlone.offerCurtain (h : s.LampsAlone i) (w : Round) (c : Fin 16) : w.offerCurtain s c = w := by
  unfold Round.offerCurtain; dsimp only
  exact if_neg fun offered => offered.1 (h.curtains c).1

theorem State.LampsAlone.offerFan (h : s.LampsAlone i) (w : Round) (r : Nat) (z : Fin 8) : w.offerFan s.budget r z = w := by
  unfold Round.offerFan; dsimp only
  refine if_neg fun ⟨asked, next, _⟩ => ?_
  rw [h.demandOf] at asked
  have : r ≤ 0 := asked
  omega

theorem State.LampsAlone.offerHeat (h : s.LampsAlone i) (w : Round) (r : Nat) (z : Fin 8) : w.offerHeat s.budget r z = w := by
  unfold Round.offerHeat; dsimp only
  refine if_neg fun ⟨asked, next, _⟩ => ?_
  rw [h.demandOf] at asked
  have : r ≤ 0 := asked
  omega

theorem largestLevel_between (rating base n budget : Nat) :
    base ≤ largestLevel rating base n budget ∧ largestLevel rating base n budget ≤ base + n := by
  obtain ⟨bound, -⟩ := largestWhere_spec (fun k => draw rating (base + k) - draw rating base ≤ budget) n
  unfold largestLevel
  omega

theorem Grants.Lamps.offerLight {a : Allocator} {w : Round} (h : w.grants.Lamps a) (g : Fin 24) :
    (w.offerLight a g).grants.Lamps a where
  heat := h.heat
  fans := h.fans
  curtains := h.curtains
  levels x := by
    unfold Round.offerLight; dsimp only
    rw [Table.get_set]
    split
    · next same =>
      subst same
      have between := largestLevel_between (a.ratings.groups.get g) (a.groups.get g).floorRequest
        ((a.groups.get g).wanted - (a.groups.get g).floorRequest) w.left
      have floor : (a.groups.get g).floorRequest ≤ (a.groups.get g).wanted := Nat.le_max_left _ _
      omega
    · exact h.levels x

/-- A fold that does nothing. -/
theorem foldl_still {α β : Type} (f : β → α → β) (b : β) (h : ∀ a, f b a = b) (l : List α) : l.foldl f b = b := by
  induction l with
  | nil => rfl
  | cons a l ih => rw [List.foldl_cons, h, ih]

theorem State.LampsAlone.offerClasses (h : s.LampsAlone i) {w : Round} (lamps : w.grants.Lamps s.budget) :
    (s.offerClasses w).grants.Lamps s.budget := by
  unfold State.offerClasses; dsimp only
  rw [foldl_still _ w fun c => h.offerCurtain w c,
    foldl_still _ w fun r => foldl_still _ w (fun z => h.offerFan w r z) _,
    foldl_still _ w fun r => foldl_still _ w (fun z => h.offerHeat w r z) _]
  exact foldl_keeps (fun v w : Round => v.grants.Lamps s.budget → w.grants.Lamps s.budget) (fun _ => id)
    (fun first next kept => next (first kept)) _ (fun w g kept => kept.offerLight g) _ w lamps

theorem State.LampsAlone.passGrants (h : s.LampsAlone i) : s.passGrants.Lamps s.budget := by
  unfold State.passGrants; dsimp only
  split
  · exact h.reservedGrants
  · exact h.offerClasses h.reservedGrants

theorem ZoneGrant.setHeat_initial : ZoneGrant.initial.setHeat 0 = ZoneGrant.initial := by
  unfold ZoneGrant.setHeat ZoneGrant.initial
  refine congrArg (ZoneGrant.mk 0 0 · 0 0) (Table.ext_get fun n => ?_)
  rw [Table.get_mapIdx, Table.get_fill]
  rfl

theorem State.passBudget_zone (s : State) (z : Fin 8) : s.passBudget.zones.get z
    = { (s.budget.zones.get z).setHeat (s.passGrants.heat.get z) with
        fans := s.passGrants.fans.get z, committed := (s.budget.zones.get z).committedNow s.budget.minOn
        floorFans := s.budget.floorFansNow z } := by
  unfold State.passBudget; dsimp only; rw [Table.get_mapIdx]

theorem State.passBudget_group (s : State) (g : Fin 24) : s.passBudget.groups.get g
    = { s.budget.groups.get g with level := s.passGrants.levels.get g } := by
  unfold State.passBudget; dsimp only; rw [Table.get_mapIdx]

/-- A pass under load: it is made only where the lamp groups draw something. -/
theorem State.LampsAlone.pass (h : s.LampsAlone i) (loaded : ¬ ∀ g, s.budget.ratings.groups.get g = 0) :
    s.pass.LampsAlone i := by
  have zones := s.passBudget_zone
  have groups := s.passBudget_group
  have demand : s.passBudget.demand = s.budget.demand := rfl
  have ratings : s.passBudget.ratings = s.budget.ratings := rfl
  have lamps := h.passGrants
  unfold State.pass; dsimp only
  generalize s.passBudget = a at zones groups demand ratings
  generalize s.passGrants = g at zones groups lamps
  refine State.LampsAlone.followGrants ?_
  constructor
  case demand => exact demand.trans h.demand
  case zones =>
    intro z
    refine (zones z).trans ?_
    rw [h.zones, lamps.heat, lamps.fans, ZoneGrant.setHeat_initial, ZoneGrant.committedNow_initial, h.floorFansNow]
    rfl
  case curtains =>
    intro c
    dsimp only
    rw [Table.get_mapIdx]
    exact ⟨(h.curtains c).1, lamps.curtains c⟩
  case levels =>
    intro x
    obtain ⟨floor, request⟩ := h.levels x
    obtain ⟨low, high⟩ := lamps.levels x
    have wanted : (s.budget.groups.get x).wanted = (s.budget.groups.get x).levelRequest :=
      Nat.max_eq_right (floor.trans request)
    dsimp only
    rw [groups]
    exact ⟨low, wanted ▸ high⟩
  case latches => exact h.latches
  case unloaded => exact fun none => absurd (fun x => (congrArg (fun r => r.groups.get x) ratings).symm.trans (none x)) loaded

/-! ### A lighting request (R124) -/

theorem draw_unrated (n : Nat) : draw 0 n = 0 := by
  unfold draw; rw [Nat.zero_mul]; rfl

theorem raisedLevel_between (rating granted desired : Nat) (headroom : Int) (h : granted ≤ desired) :
    granted ≤ raisedLevel rating granted desired headroom ∧ raisedLevel rating granted desired headroom ≤ desired := by
  unfold raisedLevel
  split
  · obtain ⟨low, high⟩ := largestLevel_between rating granted (desired - granted) headroom.toNat
    omega
  · exact ⟨Nat.le_refl _, h⟩

theorem State.LampsAlone.applyRequest (h : s.LampsAlone i) (q : LightRequest) : (s.applyRequest q).LampsAlone i where
  demand := h.demand
  zones := h.zones
  curtains := h.curtains
  latches := h.latches
  levels g := by
    unfold State.applyRequest State.setReserved State.setTotal State.setGroupGrant; dsimp only
    rw [Table.get_set]
    split
    · have floor : q.floor ≤ max q.floor q.level := Nat.le_max_left _ _
      have fallen : max (min (s.budget.groups.get q.group).level (max q.floor q.level)) q.floor ≤ max q.floor q.level := by
        omega
      obtain ⟨low, high⟩ := raisedLevel_between (s.budget.ratings.groups.get q.group) _ _ _ fallen
      exact ⟨(Nat.le_max_right _ _).trans low, high⟩
    · exact h.levels g
  unloaded none := by
    have rated : s.budget.ratings.groups.get q.group = 0 := none q.group
    obtain ⟨reserved, total, passes, links⟩ := h.unloaded none
    unfold State.applyRequest State.setReserved State.setTotal State.setGroupGrant; dsimp only
    rw [rated, draw_unrated, draw_unrated, draw_unrated, draw_unrated, draw_unrated, reserved, total]
    exact ⟨rfl, rfl, passes, links⟩

/-- Where the lamp groups rate 0 nothing exceeds any cap. -/
theorem State.LampsAlone.not_overdrawn (h : s.LampsAlone i) (none : ∀ g, s.budget.ratings.groups.get g = 0) :
    ¬ s.budget.overdrawn = true := by
  obtain ⟨reserved, total, -, -⟩ := h.unloaded none
  unfold Allocator.overdrawn
  rw [reserved, total]
  simp

theorem State.LampsAlone.raise (h : s.LampsAlone i) (f : Flag) (loaded : ¬ ∀ g, s.budget.ratings.groups.get g = 0) :
    (s.raise f).LampsAlone i where
  demand := h.demand
  zones := h.zones
  curtains := h.curtains
  levels := h.levels
  latches := h.latches
  unloaded none := absurd none loaded

theorem State.LampsAlone.lightRequest (h : s.LampsAlone i) (q : LightRequest) : (s.lightRequest q).LampsAlone i := by
  have applied := h.applyRequest q
  have raised (t : State) (alone : t.LampsAlone i) (floorRaised : Prop) [Decidable floorRaised] :
      (t.raiseIf (floorRaised ∧ t.budget.capInForce < t.budget.reserved) .overcap).LampsAlone i := by
    unfold State.raiseIf
    split
    · next raising =>
      refine alone.raise _ fun none => ?_
      obtain ⟨-, above⟩ := of_decide_eq_true raising
      rw [(alone.unloaded none).1] at above
      exact Nat.not_lt_zero _ above
    · exact alone
  have passed (t : State) (alone : t.LampsAlone i) : (if t.budget.overdrawn then t.pass else t).LampsAlone i := by
    split
    · next overdrawn => exact alone.pass fun none => alone.not_overdrawn none overdrawn
    · exact alone
  unfold State.lightRequest; dsimp only
  generalize s.applyRequest q = t at applied
  split
  · exact (passed _ (raised t applied _)).retryCurtains
  · exact passed _ (raised t applied _)

theorem State.LampsAlone.exchange (h : s.LampsAlone i) (n : Nat) (qs : List LightRequest) : (s.exchange n qs).LampsAlone i :=
  State.exchange_keeps (fun s t => s.LampsAlone i → t.LampsAlone i) (fun _ => id) (fun first next kept => next (first kept))
    (fun _ q kept => kept.lightRequest q) (fun _ _ kept => kept.of_eq rfl rfl rfl rfl) n s qs h

end Sys2Proof.Machine
end

section
/-! SUPPORT. A start-up (R2, R8, R176): the records as the reset leaves them, the set events it raises, and the lamp groups
started. -/

namespace Sys2Proof.Machine

variable {s t u : State}

/-! ### The set events -/

/-- A set event delivered when a condition holds. -/
def LinkInterface.raiseIf (i : LinkInterface) (c : Bool) (f : Flag) : LinkInterface := if c then i.raise f else i

theorem State.raiseIf_eq (s : State) (c : Bool) (f : Flag) : s.raiseIf c f = { s with links := s.links.raiseIf c f } := by
  cases c <;> rfl

theorem LinkInterface.isSet_raiseIf (i : LinkInterface) (c : Bool) (f g : Flag) :
    (i.raiseIf c f).isSet g = true ↔ i.isSet g = true ∨ c = true ∧ f = g := by
  unfold LinkInterface.raiseIf
  cases c <;> simp [LinkInterface.isSet_raise]

theorem LinkInterface.grows_raiseIf (i : LinkInterface) (c : Bool) (f : Flag) : i.Grows (i.raiseIf c f) := by
  unfold LinkInterface.raiseIf
  split
  · exact i.grows_raise f
  · exact .refl i

/-- The supervisor queue holds ATTENTION notices alone, and is being sent exactly when it holds one (R166). -/
structure LinkInterface.Attends (i : LinkInterface) : Prop where
  held    : i.supervisor.held = false
  sending : i.supervisor.sending = !i.supervisor.queue.isEmpty
  frames  : ∀ x ∈ i.supervisor.queue, ∃ f flags, x = ⟨0xF0, 0, .notice (.attention f flags i.enables)⟩

theorem LinkState.offer_sending (x : LinkState) (f : Frame) (held : x.held = false) (sending : x.sending = !x.queue.isEmpty) :
    (x.offer f).sending = !(x.offer f).queue.isEmpty := by
  unfold LinkState.offer
  split
  · simp [held]
  · exact sending

theorem LinkInterface.Attends.raise {i : LinkInterface} (h : i.Attends) (f : Flag) : (i.raise f).Attends := by
  unfold LinkInterface.raise; dsimp only
  have set : LinkInterface.Attends { i with flags := i.flags ||| flagBit f } := ⟨h.held, h.sending, h.frames⟩
  split
  · exact h
  · split
    · unfold LinkInterface.notify
      split
      · exact set
      · refine ⟨(LinkState.offer_held _ _).trans h.held, LinkState.offer_sending _ _ h.held h.sending, fun x hx => ?_⟩
        have joined : x ∈ (i.supervisor.offer (noticeFrame (.attention f (i.flags ||| flagBit f) i.enables))).queue := hx
        rw [LinkState.offer_queue] at joined
        split at joined
        · rcases List.mem_append.mp joined with old | new
          · exact h.frames x old
          · exact ⟨f, i.flags ||| flagBit f, List.mem_singleton.mp new⟩
        · exact h.frames x joined
    · exact set

theorem LinkInterface.Attends.raiseIf {i : LinkInterface} (h : i.Attends) (c : Bool) (f : Flag) : (i.raiseIf c f).Attends := by
  unfold LinkInterface.raiseIf
  split
  · exact h.raise f
  · exact h

/-- The links as a reset leaves them (R166, R176). -/
def LinkInterface.fresh (enables : BitVec 10) : LinkInterface := ⟨.initial, .initial, 0, enables, none⟩

theorem LinkInterface.fresh_attends (enables : BitVec 10) : (LinkInterface.fresh enables).Attends :=
  ⟨rfl, rfl, fun _ h => nomatch h⟩

theorem LinkInterface.fresh_clear (enables : BitVec 10) (f : Flag) : (LinkInterface.fresh enables).isSet f = false :=
  BitVec.getLsbD_zero

/-! ### The mode events of a start-up (R66, R83) -/

/-- No forecast, no open door, no curtain wanted, no demand and no zone granted anything. -/
structure State.Shut (s : State) : Prop where
  forecasts : s.doors.forecasts = []
  doors     : ∀ d, (s.channel d).isOpen = false
  curtains  : ∀ c, (s.doors.curtains.get c).state = .idle
  demand    : s.budget.demand = none
  zones     : ∀ z, s.budget.zones.get z = ZoneGrant.initial

theorem State.Shut.reevaluate (h : s.Shut) (c : Fin 16) : s.reevaluate c = s := by
  have unwanted : s.curtainWanted c = false := by
    unfold State.curtainWanted; dsimp only
    rw [Bool.and_eq_false_iff]
    exact .inr (List.any_eq_false.mpr fun d _ => by simp [h.doors d])
  have still : s.evaluated c = (s.doors.curtains.get c, .nothing) := by
    unfold State.evaluated Curtain.evaluate; dsimp only
    rw [h.curtains, unwanted]
  unfold State.reevaluate State.setCurtain
  rw [still, Table.set_get]
  rfl

theorem State.Shut.doorMode (h : s.Shut) (z : Fin 8) : s.doorMode z = s := by
  have forecasts : (if s.zoneMode z = .auto then s
      else { s with doors := { s.doors with forecasts := s.doors.forecasts.filter fun f =>
        (s.channel f.door).config.zone ≠ some z } }) = s := by
    split
    · rfl
    · rw [h.forecasts, List.filter_nil, ← h.forecasts]
  unfold State.doorMode; dsimp only
  rw [forecasts]
  refine foldl_still _ s (fun c => ?_) _
  dsimp only
  split
  · exact h.reevaluate c
  · rfl

theorem State.Shut.modeEvent (h : s.Shut) (z : Fin 8) : s.modeEvent z = s := by
  have unmarked : s.markOff z = s := by unfold State.markOff; rw [h.demand, Option.map_none, ← h.demand]
  unfold State.modeEvent State.zoneOff; dsimp only
  rw [h.doorMode, unmarked, h.zones]
  split
  · exact if_pos ⟨rfl, rfl⟩
  · rfl

/-! ### The lamp groups started (R130, R138, R139) -/

/-- A group at its start-up event. -/
def Group.startedIn (x : Group) (sc : Scene) (d : Daylight) : Group :=
  (if x.config.enabled then x.started else x.disabledNow).recompute sc d

/-- Every group started in one event, its request recorded and its dimmer set to its output. -/
def State.lampsStarted (s : State) : State :=
  { s with
    lighting := { s.lighting with groups := s.lighting.groups.mapIdx fun g x =>
      (x.startedIn (s.scene g) s.lighting.taken).requesting (s.scene g) }
    lines := { s.lines with dimmers := s.lines.dimmers.mapIdx fun g _ =>
      ((s.lighting.groups.get g).startedIn (s.scene g) s.lighting.taken).output } }

theorem State.startLights_eq (s : State) : ∃ qs, s.startLights = s.takeDaylight.lampsStarted.exchange exchangeRounds qs := by
  have event := State.groupsDo_each (fun s g x => recomputed s g (if x.config.enabled then x.started else x.disabledNow))
    (fun g x => x.startedIn (s.takeDaylight.scene g) s.takeDaylight.lighting.taken) s.takeDaylight
    (by
      intro u g x calendar taken
      unfold recomputed Group.startedIn State.scene State.sceneOf State.phase
      rw [calendar, taken])
    (indices 24) (List.nodup_finRange 24)
  have member (g : Fin 24) : g ∈ indices 24 := List.mem_finRange g
  simp only [member, if_true] at event
  unfold State.startLights
  rw [event]
  exact ⟨_, Eq.refl _⟩

theorem Group.startedIn_config (x : Group) (sc : Scene) (d : Daylight) : (x.startedIn sc d).config = x.config := by
  obtain ⟨config, -⟩ := Group.recompute_spec (if x.config.enabled then x.started else x.disabledNow) sc d
  unfold Group.startedIn
  rw [config]
  split <;> rfl

theorem Daylight.trimFor_lost {d : Daylight} (lost : d.reading.value = none) (base floor : Nat) : d.trimFor base floor = 0 := by
  unfold Daylight.trimFor; rw [lost]

theorem Group.trimNow_lost (x : Group) (sc : Scene) {d : Daylight} (lost : d.reading.value = none) : x.trimNow sc d = 0 := by
  unfold Group.trimNow
  split
  · exact Daylight.trimFor_lost lost _ _
  · exact Daylight.trimFor_lost lost _ _
  · rfl

/-- A group started while the daylight source is LOST. -/
theorem Group.startedIn_spec (c : GroupConfig) (sc : Scene) {d : Daylight} (lost : d.reading.value = none) (x : Group)
    (hx : x = (Group.dark c).startedIn sc d) : x.override = none ∧ x.trim = 0 ∧ x.lastOccupancy = false
    ∧ if c.enabled then x.state = .lit ∧ x.hold = c.fullHold ∧ x.desired = max sc.floor sc.level
      else x.state = .disabled ∧ x.hold = none ∧ x.desired = 0 := by
  have config : (Group.dark c).config = c := rfl
  unfold Group.startedIn at hx
  rw [config] at hx
  by_cases enabled : c.enabled = true
  · rw [if_pos enabled] at hx ⊢
    obtain ⟨-, state, hold, override, occupancy, trim, desired⟩ := (Group.dark c).started.recompute_spec sc d
    rw [← hx] at state hold override occupancy trim desired
    refine ⟨override, trim.trans (Group.trimNow_lost _ sc lost), occupancy, state, hold, desired.trans ?_⟩
    have lit : (Group.dark c).started.desiredNow sc d = max sc.floor (sc.level - (Group.dark c).started.trimNow sc d) := rfl
    rw [lit, Group.trimNow_lost _ sc lost, Nat.sub_zero]
  · rw [if_neg enabled] at hx ⊢
    obtain ⟨-, state, hold, override, occupancy, trim, desired⟩ := (Group.dark c).disabledNow.recompute_spec sc d
    rw [← hx] at state hold override occupancy trim desired
    exact ⟨override, trim.trans (Group.trimNow_lost _ sc lost), occupancy, state, hold, desired⟩

/-! ### The whole start-up -/

/-- The links once the set events of a start-up are delivered (R2, R176). -/
def State.startLinks (s : State) (k : Clock) : LinkInterface :=
  (((LinkInterface.fresh (s.store.operCopy.contents Operating.default).enables).raiseIf (!k.running) .clockUnset).raiseIf
    (s.store.commCopy.status == .damaged) .storeDamaged).raiseIf (s.store.operCopy.status == .damaged) .storeDamaged

/-- The records as a reset leaves them, with those set events delivered. -/
def State.awake (s : State) (boards : BitVec 6) (k : Clock) : State :=
  { s.reinitialised boards k with links := s.startLinks k }

theorem State.awake_shut (s : State) (boards : BitVec 6) (k : Clock) : (s.awake boards k).Shut where
  forecasts := rfl
  doors d := by
    have channel : (s.awake boards k).channel d = Channel.initial _ := Table.get_map _ _ d
    rw [channel]; rfl
  curtains c := by
    have curtain : (s.awake boards k).doors.curtains.get c = Curtain.initial _ := Table.get_map _ _ c
    rw [curtain]; rfl
  demand := rfl
  zones z := Table.get_fill _ z

theorem State.startUp_eq (s : State) (boards : BitVec 6) (keep : Bool) :
    s.startUp boards keep = (s.awake boards (s.clockAfter keep)).startLights.startRound := by
  have quiet := s.awake_shut boards (s.clockAfter keep)
  have modes : ((s.awake boards (s.clockAfter keep)).forEach 8 fun z t => t.modeEvent z) = s.awake boards (s.clockAfter keep) :=
    foldl_still _ _ (fun z => quiet.modeEvent z) _
  unfold State.startUp; dsimp only
  rw [State.raiseIf_eq, State.raiseIf_eq, State.raiseIf_eq]
  exact congrArg (fun t => (State.startLights t).startRound) modes

/-- A start-up, in three stages: the records awake, the lamp groups started, and the exchange with the allocator. -/
structure State.StartsAs (s t : State) (boards : BitVec 6) (k : Clock) (w e : State) : Prop where
  lit   : w = (s.awake boards k).takeDaylight.lampsStarted
  only  : w.GrantsOnly e
  alone : e.LampsAlone (s.startLinks k)
  links : State.MayRaise .overcap w e
  ends  : t = e.startRound

theorem State.lampsStarted_alone (s : State) (boards : BitVec 6) (k : Clock) :
    (s.awake boards k).takeDaylight.lampsStarted.LampsAlone (s.startLinks k) := by
  have awake : (s.awake boards k).LampsAlone (s.startLinks k) := by
    constructor
    case demand => rfl
    case zones => exact fun z => Table.get_fill _ z
    case curtains =>
      intro c
      have curtain : (s.awake boards k).doors.curtains.get c = Curtain.initial _ := Table.get_map _ _ c
      rw [curtain]
      exact ⟨rfl, rfl⟩
    case levels =>
      intro g
      have grant : (s.awake boards k).budget.groups.get g = ⟨0, 0, 0⟩ := Table.get_fill _ g
      rw [grant]
      exact ⟨Nat.le_refl _, Nat.le_refl _⟩
    case latches =>
      intro l _
      have line : (s.awake boards k).lines.lines.get l = ⟨_, false, none⟩ :=
        Table.get_map (fun c : LineConfig => (⟨c, false, none⟩ : Line)) _ l
      rw [line]
    case unloaded => exact fun _ => ⟨rfl, rfl, rfl, rfl⟩
  exact awake.of_eq rfl rfl rfl rfl

theorem State.startUp_startsAs (s : State) (boards : BitVec 6) (keep : Bool) :
    ∃ w e, s.StartsAs (s.startUp boards keep) boards (s.clockAfter keep) w e := by
  obtain ⟨qs, exchanged⟩ := (s.awake boards (s.clockAfter keep)).startLights_eq
  have whole := s.startUp_eq boards keep
  rw [exchanged] at whole
  exact ⟨_, _, rfl, State.grantsOnly_exchange _ _ _, (s.lampsStarted_alone boards _).exchange _ _,
    State.exchange_raises _ _ _, whole⟩

end Sys2Proof.Machine
end

section
/-! SUPPORT. What a start-up leaves in every block (R2, R8, R51, R112, R114, R166, R176), and the commands that bring one (R157, R170,
R172, R177). -/

namespace Sys2Proof.Machine

variable {s t u w e : State} {boards : BitVec 6} {k : Clock}

/-! ### The stored tables -/

theorem State.CycleOnly.commissioning (h : s.CycleOnly t) : t.commissioning = s.commissioning := by
  have zones : t.climate.zones.map Zone.config = s.climate.zones.map Zone.config :=
    Table.ext_get fun z => by rw [Table.get_map, Table.get_map, (h.zones z).1]
  have curtains : t.doors.curtains.map Curtain.config = s.doors.curtains.map Curtain.config :=
    Table.ext_get fun c => by rw [Table.get_map, Table.get_map, h.curtains c]
  have groups : t.lighting.groups.map Group.config = s.lighting.groups.map Group.config :=
    Table.ext_get fun g => by rw [Table.get_map, Table.get_map, (h.groups g).1]
  have lines : t.lines.lines.map Line.config = s.lines.lines.map Line.config :=
    Table.ext_get fun l => by rw [Table.get_map, Table.get_map, (h.lines l).1]
  unfold State.commissioning
  rw [zones, h.channels, curtains, h.sensors, h.ratings, groups, lines]

theorem Table.map_back {n : Nat} {α β : Type} (f : α → β) (g : β → α) (back : ∀ a, g (f a) = a) (x : Table n α) :
    (x.map f).map g = x := Table.ext_get fun i => by rw [Table.get_map, Table.get_map, back]

theorem State.awake_commissioning (s : State) (boards : BitVec 6) (k : Clock) :
    (s.awake boards k).commissioning = s.store.commCopy.contents Commissioning.default := by
  generalize hx : s.store.commCopy.contents Commissioning.default = x
  have zones : (s.awake boards k).climate.zones.map Zone.config = x.zones := by
    rw [← hx]; exact Table.map_back _ Zone.config (fun _ => rfl) _
  have doors : (s.awake boards k).doors.channels.map Channel.config = x.doors := by
    rw [← hx]; exact Table.map_back _ Channel.config (fun _ => rfl) _
  have curtains : (s.awake boards k).doors.curtains.map Curtain.config = x.curtains := by
    rw [← hx]; exact Table.map_back _ Curtain.config (fun _ => rfl) _
  have nodes : (s.awake boards k).sensors.nodes.map Node.config = x.nodes := by
    rw [← hx]; exact Table.map_back _ Node.config (fun _ => rfl) _
  have groups : (s.awake boards k).lighting.groups.map Group.config = x.groups := by
    rw [← hx]; exact Table.map_back _ Group.config (fun _ => rfl) _
  have lines : (s.awake boards k).lines.lines.map Line.config = x.lines := by
    rw [← hx]; exact Table.map_back _ Line.config (fun _ => rfl) _
  have map : (s.awake boards k).sensors.map = x.map := by rw [← hx]; rfl
  have ratings : (s.awake boards k).budget.ratings = x.ratings := by rw [← hx]; rfl
  unfold State.commissioning
  rw [zones, doors, curtains, nodes, map, ratings, groups, lines]

theorem State.lampsStarted_commissioning (s : State) : s.lampsStarted.commissioning = s.commissioning := by
  have groups : s.lampsStarted.lighting.groups.map Group.config = s.lighting.groups.map Group.config :=
    Table.ext_get fun g => by
      unfold State.lampsStarted; dsimp only
      rw [Table.get_map, Table.get_map, Table.get_mapIdx]
      exact Group.startedIn_config _ _ _
  unfold State.commissioning
  rw [groups]
  rfl

/-- A node just initialised has no value to hand (R80). -/
theorem Sensors.reading_initial (m : Sensors) (fresh : ∀ n, (m.nodes.get n).value = none) (source : Option (Fin 16)) :
    m.reading source = .lost := by
  cases source with
  | none => rfl
  | some n =>
    unfold Sensors.reading; dsimp only
    rw [fresh]
    split <;> simp_all

namespace State.StartsAs

theorem commissioning (h : s.StartsAs t boards k w e) :
    t.commissioning = s.store.commCopy.contents Commissioning.default := by
  have ended : t.commissioning = e.commissioning := by rw [h.ends]; rfl
  rw [ended, h.only.commissioning, h.lit, State.lampsStarted_commissioning]
  exact s.awake_commissioning boards k

theorem operating (h : s.StartsAs t boards k w e) : t.operating
    = (s.store.operCopy.contents Operating.default).clampedBy (s.store.commCopy.contents Commissioning.default).zones := by
  have ended : t.operating = e.operating := by rw [h.ends]; rfl
  have links : (s.startLinks k).enables = (s.store.operCopy.contents Operating.default).enables := by
    unfold State.startLinks
    rw [(LinkInterface.grows_raiseIf _ _ _).enables, (LinkInterface.grows_raiseIf _ _ _).enables,
      (LinkInterface.grows_raiseIf _ _ _).enables]
    rfl
  have begun : w.operating = { (s.store.operCopy.contents Operating.default).clampedBy
      (s.store.commCopy.contents Commissioning.default).zones with enables := (s.startLinks k).enables } := by
    rw [h.lit]; rfl
  rw [ended, h.only.operating, begun, links]
  rfl

/-! ### The calendar, the doors and the sensors -/

theorem calendar (h : s.StartsAs t boards k w e) : t.calendar = (s.reinitialised boards k).calendar := by
  have ended : t.calendar = e.calendar := by rw [h.ends]; rfl
  rw [ended, h.only.calendar, h.lit]
  rfl

theorem phase (h : s.StartsAs t boards k w e) :
    t.phase = (recordAfter k (s.store.operCopy.contents Operating.default)).phase := by
  unfold State.phase; rw [h.calendar]; rfl

theorem channel (h : s.StartsAs t boards k w e) (d : Fin 32) : ∃ c, t.channel d = .initial c := by
  have ended : t.channel d = (s.reinitialised boards k).channel d := by
    have kept : e.doors.channels = (s.reinitialised boards k).doors.channels := by rw [h.only.channels, h.lit]; rfl
    rw [h.ends]
    exact congrArg (fun x => x.get d) kept
  exact ⟨_, ended.trans (Table.get_map _ _ _)⟩

theorem curtain (h : s.StartsAs t boards k w e) (c : Fin 16) :
    t.doors.curtains.get c = ⟨(t.doors.curtains.get c).config, .idle, none, false⟩ := by
  have ended : t.doors.curtains.get c = e.doors.curtains.get c := by rw [h.ends]; rfl
  obtain ⟨idle, ungranted⟩ := h.alone.curtains c
  have begun : (w.doors.curtains.get c).remaining = none := by
    have curtain : w.doors.curtains.get c
        = Curtain.initial ((s.store.commCopy.contents Commissioning.default).curtains.get c) := by
      rw [h.lit]; exact Table.get_map _ _ c
    rw [curtain]; rfl
  have remaining := (h.only.curtain c).2.trans begun
  rw [ended]
  generalize e.doors.curtains.get c = x at idle ungranted remaining
  obtain ⟨config, state, left, granted⟩ := x
  cases idle; cases ungranted; cases remaining
  rfl

theorem sensors (h : s.StartsAs t boards k w e) : t.sensors.nodes = (s.reinitialised boards k).sensors.nodes
    ∧ t.sensors.polled = t.sensors.configuredFrom 0 ∧ t.sensors.roundMark = false := by
  have kept : e.sensors = (s.reinitialised boards k).sensors := by rw [h.only.sensors, h.lit]; rfl
  rw [h.ends]
  have nodes : e.sensors.nodes = (s.reinitialised boards k).sensors.nodes := congrArg Sensors.nodes kept
  exact ⟨nodes, rfl, rfl⟩

theorem node (h : s.StartsAs t boards k w e) (n : Fin 16) : ∃ c, t.sensors.nodes.get n = .initial c := by
  rw [h.sensors.1]
  exact ⟨_, Table.get_map _ _ _⟩

/-! ### The zones, the allocator and the lamp groups -/

theorem climate (h : s.StartsAs t boards k w e) : t.climate = (s.reinitialised boards k).climate := by
  have ended : t.climate = e.climate := by rw [h.ends]; rfl
  rw [ended, h.only.climate, h.lit]
  rfl

theorem zone (h : s.StartsAs t boards k w e) (z : Fin 8) : ∃ c : ZoneConfig,
    t.climate.zones.get z = ⟨c, c.firstMode, 0, 0, .initial⟩ := by
  rw [h.climate]
  exact ⟨_, Table.get_map _ _ _⟩

theorem caps (h : s.StartsAs t boards k w e) :
    t.budget.phaseCap = (t.paramsOf t.phase).cap ∧ t.budget.supCap = none ∧ t.budget.demand = none := by
  have ended : t.budget = e.budget := by rw [h.ends]; rfl
  obtain ⟨phaseCap, supCap⟩ := h.only.caps
  have cap : (t.paramsOf t.phase).cap = w.budget.phaseCap := by
    unfold State.paramsOf State.phase; rw [h.calendar, h.lit]; rfl
  have none : w.budget.supCap = none := by rw [h.lit]; rfl
  rw [ended]
  exact ⟨phaseCap.trans cap.symm, supCap.trans none, h.alone.demand⟩

theorem taken (h : s.StartsAs t boards k w e) : w.lighting.taken = ⟨⟨.lost, none⟩, w.lighting.luxStart, w.lighting.gain⟩ := by
  have lost : (s.awake boards k).sensors.reading (s.awake boards k).sensors.map.daylight = .lost :=
    Sensors.reading_initial _ (fun n => by
      have node : (s.awake boards k).sensors.nodes.get n = Node.initial _ := Table.get_map _ _ n
      rw [node]; rfl) _
  have start : w.lighting.taken = ⟨(s.awake boards k).sensors.reading (s.awake boards k).sensors.map.daylight,
      w.lighting.luxStart, w.lighting.gain⟩ := by rw [h.lit]; rfl
  rw [start, lost]
  rfl

theorem group (h : s.StartsAs t boards k w e) (g : Fin 24) :
    (t.lighting.groups.get g).override = none ∧ (t.lighting.groups.get g).trim = 0
    ∧ (t.lighting.groups.get g).lastOccupancy = false
    ∧ if (t.lighting.groups.get g).config.enabled
      then (t.lighting.groups.get g).state = .lit
        ∧ (t.lighting.groups.get g).hold = (t.lighting.groups.get g).config.fullHold
        ∧ (t.lighting.groups.get g).desired = max (t.scene g).floor (t.scene g).level
      else (t.lighting.groups.get g).state = .disabled ∧ (t.lighting.groups.get g).hold = none
        ∧ (t.lighting.groups.get g).desired = 0 := by
  have scene : t.scene g = w.scene g := by
    unfold State.scene State.sceneOf State.phase; rw [h.calendar, h.lit]; rfl
  have ended : t.lighting.groups.get g = e.lighting.groups.get g := by rw [h.ends]; rfl
  have lost : w.lighting.taken.reading.value = none := by rw [h.taken]
  obtain ⟨c, begun⟩ : ∃ c, w.lighting.groups.get g = ((Group.dark c).startedIn (w.scene g) w.lighting.taken).requesting (w.scene g) := by
    have dark : (s.awake boards k).lighting.groups.get g = Group.dark _ := Table.get_map _ _ g
    refine ⟨((s.store.commCopy.contents Commissioning.default).groups.get g), ?_⟩
    rw [h.lit, ← dark]
    exact Table.get_mapIdx _ _ _
  obtain ⟨config, state, hold, override, occupancy⟩ := h.only.groups g
  obtain ⟨trim, desired⟩ := h.only.desired g
  rw [← ended] at config state hold override occupancy trim desired
  rw [begun] at config state hold override occupancy trim desired
  have own : (t.lighting.groups.get g).config = c := config.trans (Group.startedIn_config _ _ _)
  obtain ⟨override', trim', occupancy', rest⟩ := Group.startedIn_spec c (w.scene g) lost _ rfl
  refine ⟨override.trans override', trim.trans trim', occupancy.trans occupancy', ?_⟩
  rw [own, scene]
  split
  · next enabled =>
    rw [if_pos enabled] at rest
    obtain ⟨lit, full, level⟩ := rest
    exact ⟨state.trans lit, hold.trans full, desired.trans level⟩
  · next off =>
    rw [if_neg off] at rest
    obtain ⟨dark, none, zero⟩ := rest
    exact ⟨state.trans dark, hold.trans none, desired.trans zero⟩

/-! ### The lines and the links -/

theorem line (h : s.StartsAs t boards k w e) (l : Fin 192) : (t.lines.lines.get l).driven = none := by
  have ended : t.lines.lines.get l = e.lines.lines.get l := by rw [h.ends]; rfl
  have begun : w.lines.lines.get l = ⟨(s.store.commCopy.contents Commissioning.default).lines.get l, false, none⟩ := by
    rw [h.lit]
    exact Table.get_map (fun c : LineConfig => (⟨c, false, none⟩ : Line)) _ l
  rw [ended, (h.only.lines l).2, begun]

theorem latch (h : s.StartsAs t boards k w e) (l : Fin 192) (other : ∀ z, (t.lines.lines.get l).config.binding ≠ .heat z 0
    ∧ (t.lines.lines.get l).config.binding ≠ .fan z 0) : (t.lines.lines.get l).latch = false := by
  have ended : t.lines.lines.get l = e.lines.lines.get l := by rw [h.ends]; rfl
  rw [ended] at other ⊢
  exact h.alone.latches l other

theorem board (h : s.StartsAs t boards k w e) (b : Fin 6) : t.lines.boards.get b = .initial (boards.getLsbD b.val) := by
  have ended : t.lines.boards = e.lines.boards := by rw [h.ends]; rfl
  have begun : w.lines.boards = Table.ofFn fun i : Fin 6 => Board.initial (boards.getLsbD i.val) := by rw [h.lit]; rfl
  rw [ended, h.only.boards, begun, Table.get_ofFn]

theorem links_eq (h : s.StartsAs t boards k w e) : t.links = s.startLinks k ∨ t.links = (s.startLinks k).raise .overcap := by
  have ended : t.links = e.links := by rw [h.ends]; rfl
  have begun : w.links = s.startLinks k := by rw [h.lit]; rfl
  rw [ended, ← begun]
  exact h.links

end State.StartsAs

/-! ### The links after a start-up (R166, R176) -/

theorem State.startLinks_attends (s : State) (k : Clock) : (s.startLinks k).Attends :=
  (((LinkInterface.fresh_attends _).raiseIf _ _).raiseIf _ _).raiseIf _ _

theorem State.startLinks_grows (s : State) (k : Clock) :
    (LinkInterface.fresh (s.store.operCopy.contents Operating.default).enables).Grows (s.startLinks k) :=
  ((LinkInterface.grows_raiseIf _ _ _).trans (LinkInterface.grows_raiseIf _ _ _)).trans (LinkInterface.grows_raiseIf _ _ _)

theorem LinkInterface.speaks_raiseIf (i : LinkInterface) (c : Bool) (f : Flag) : i.Speaks (i.raiseIf c f) := by
  unfold LinkInterface.raiseIf
  split
  · exact i.speaks_raise f
  · exact .refl i

theorem State.startLinks_panel (s : State) (k : Clock) : (s.startLinks k).panel = LinkState.initial :=
  (((LinkInterface.speaks_raiseIf _ _ _).trans (LinkInterface.speaks_raiseIf _ _ _)).trans
    (LinkInterface.speaks_raiseIf _ _ _)).panel

theorem Copy.status_damaged {α : Type} (x : Copy α) : (x.status == .damaged) = true ↔ x = .spoiled := by
  cases x <;> simp [Copy.status]

theorem State.startLinks_isSet (s : State) (k : Clock) (f : Flag) : (s.startLinks k).isSet f = true ↔
    f = .clockUnset ∧ k.running = false
      ∨ f = .storeDamaged ∧ (s.store.commCopy = .spoiled ∨ s.store.operCopy = .spoiled) := by
  unfold State.startLinks
  rw [LinkInterface.isSet_raiseIf, LinkInterface.isSet_raiseIf, LinkInterface.isSet_raiseIf, LinkInterface.fresh_clear,
    Copy.status_damaged, Copy.status_damaged, Bool.not_eq_true']
  constructor
  · rintro (((no | ⟨unset, rfl⟩) | ⟨spoiled, rfl⟩) | ⟨spoiled, rfl⟩)
    · cases no
    · exact .inl ⟨rfl, unset⟩
    · exact .inr ⟨rfl, .inl spoiled⟩
    · exact .inr ⟨rfl, .inr spoiled⟩
  · rintro (⟨rfl, unset⟩ | ⟨rfl, spoiled | spoiled⟩)
    · exact .inl (.inl (.inr ⟨unset, rfl⟩))
    · exact .inl (.inr ⟨spoiled, rfl⟩)
    · exact .inr ⟨spoiled, rfl⟩

namespace State.StartsAs

theorem attends (h : s.StartsAs t boards k w e) : t.links.Attends := by
  rcases h.links_eq with eq | eq <;> rw [eq]
  · exact s.startLinks_attends k
  · exact (s.startLinks_attends k).raise _

theorem panel (h : s.StartsAs t boards k w e) : t.links.panel = LinkState.initial := by
  rcases h.links_eq with eq | eq <;> rw [eq]
  · exact s.startLinks_panel k
  · exact (LinkInterface.speaks_raise _ _).panel.trans (s.startLinks_panel k)

theorem grows (h : s.StartsAs t boards k w e) : (s.startLinks k).Grows t.links := by
  rcases h.links_eq with eq | eq <;> rw [eq]
  · exact .refl _
  · exact LinkInterface.grows_raise _ _

theorem link (h : s.StartsAs t boards k w e) (l : Link) : (t.links.link l).receiver = .hunting ∧ (t.links.link l).held = false
    ∧ (t.links.link l).queue.length ≤ 8 := by
  have grown := (s.startLinks_grows k).trans h.grows
  refine ⟨(grown.receiver l).trans ?_, (grown.held l).trans ?_, grown.queues (fun m => ?_) l⟩
  · cases l <;> rfl
  · cases l <;> rfl
  · cases m <;> exact Nat.zero_le _

theorem restart (h : s.StartsAs t boards k w e) : t.links.restart = none :=
  ((s.startLinks_grows k).trans h.grows).restart

/-- OVERCAP is raised only where a lamp group rates anything. -/
theorem clear (h : s.StartsAs t boards k w e) (f : Flag) (set : t.links.isSet f = true) :
    f = .clockUnset ∧ k.running = false
    ∨ f = .storeDamaged ∧ (s.store.commCopy = .spoiled ∨ s.store.operCopy = .spoiled)
    ∨ f = .overcap ∧ ∃ g, t.budget.ratings.groups.get g ≠ 0 := by
  have budget : t.budget = e.budget := by rw [h.ends]; rfl
  have ended : t.links = e.links := by rw [h.ends]; rfl
  by_cases rated : ∃ g, t.budget.ratings.groups.get g ≠ 0
  · rcases h.links_eq with eq | eq <;> rw [eq] at set
    · exact ((s.startLinks_isSet k f).mp set).imp_right .inl
    · rw [LinkInterface.isSet_raise, Bool.or_eq_true, decide_eq_true_iff] at set
      rcases set with set | rfl
      · exact ((s.startLinks_isSet k f).mp set).imp_right .inl
      · exact .inr (.inr ⟨rfl, rated⟩)
  · have unrated : ∀ g, e.budget.ratings.groups.get g = 0 := fun g =>
      budget ▸ not_not.mp (not_exists.mp rated g)
    obtain ⟨-, -, -, links⟩ := h.alone.unloaded unrated
    rw [ended, links] at set
    exact ((s.startLinks_isSet k f).mp set).imp_right .inl

theorem raised (h : s.StartsAs t boards k w e) {f : Flag} (set : (s.startLinks k).isSet f = true) : t.links.isSet f = true :=
  h.grows.flags f set

end State.StartsAs


end Sys2Proof.Machine
end

section
/-! SUPPORT. RESTART, RESET_TAKES_EFFECT, POWER_ON, LOSS_OF_POWER and RESET_PIN_LOW, from what a start-up leaves (R157, R170, R172, R176,
R177). -/

namespace Sys2Proof.Machine

variable {s t u v : State}

/-! ### Every block after a start-up -/

theorem State.reinitialised_capped (s : State) (boards : BitVec 6) (k : Clock) : (s.reinitialised boards k).LampsCapped := by
  intro g
  have group : (s.reinitialised boards k).lighting.groups.get g = Group.dark _ := Table.get_map _ _ g
  have dimmer : (s.reinitialised boards k).lines.dimmers.get g = 0 := Table.get_fill _ g
  rw [group, dimmer]
  exact ⟨Nat.le_refl _, fun _ => ⟨rfl, rfl⟩, rfl⟩

theorem State.startUp_startedUp (s : State) (boards : BitVec 6) (keep : Bool) :
    s.StartedUp (s.startUp boards keep) boards (s.clockAfter keep) := by
  obtain ⟨w, e, h⟩ := s.startUp_startsAs boards keep
  have capped := (s.keeps_startUp boards keep).caps (s.reinitialised_capped boards _)
  have floors := s.lamps_startUp boards keep
  generalize s.startUp boards keep = t at h capped floors
  generalize s.clockAfter keep = k at h
  have budget : t.budget = e.budget := by rw [h.ends]; rfl
  have doors : t.doors = e.doors := by rw [h.ends]; rfl
  have lighting : t.lighting = e.lighting := by rw [h.ends]; rfl
  obtain ⟨start, gain, taken⟩ := h.only.light
  obtain ⟨nodes, polled, mark⟩ := h.sensors
  exact {
    power := by rw [h.ends]; exact h.only.power.trans (by rw [h.lit]; rfl)
    clock := by rw [h.ends]; exact h.only.clock.trans (by rw [h.lit]; rfl)
    tables := by rw [h.operating, h.commissioning]
    config := h.commissioning
    record := by rw [h.calendar]; rfl
    staging := by rw [h.calendar]; rfl
    channels := fun d => by obtain ⟨c, initial⟩ := h.channel d; rw [initial]; rfl
    rings := by rw [doors]; exact h.only.rings.trans (by rw [h.lit]; rfl)
    queue := by rw [doors]; exact h.only.records.trans (by rw [h.lit]; rfl)
    windows := by rw [doors]; exact h.only.windows.trans (by rw [h.lit]; rfl)
    curtains := h.curtain
    nodes := fun n => by obtain ⟨c, initial⟩ := h.node n; rw [initial]; rfl
    poll := ⟨polled, mark⟩
    zones := fun z => by obtain ⟨c, initial⟩ := h.zone z; rw [initial]
    figures := by rw [h.climate]; exact ⟨rfl, rfl, rfl, rfl⟩
    caps := h.caps
    heaters := fun z => by rw [budget]; exact h.alone.zones z
    levels := fun g => by rw [budget]; exact h.alone.levels g
    unloaded := by
      rw [budget]
      intro none
      obtain ⟨reserved, total, passes, -⟩ := h.alone.unloaded none
      exact ⟨reserved, total, passes⟩
    groups := fun g => by
      obtain ⟨override, trim, occupancy, rest⟩ := h.group g
      obtain ⟨-, dark, -⟩ := capped g
      refine ⟨override, trim, occupancy, ?_⟩
      split
      · next enabled => rw [if_pos enabled] at rest; exact rest
      · next off =>
        rw [if_neg off] at rest
        obtain ⟨disabled, hold, desired⟩ := rest
        exact ⟨disabled, hold, (dark disabled).1, desired⟩
    lamps := floors
    daylight := by rw [lighting, taken, start, gain]; exact h.taken
    boards := h.board
    undriven := h.line
    latches := h.latch
    dimmers := fun g => (capped g).2.2
    store := by rw [h.ends]; exact h.only.store.trans (by rw [h.lit]; rfl)
    accounts := by rw [h.phase, h.ends]; exact h.only.accounts.trans (by rw [h.lit]; rfl)
    links := h.link
    panel := by rw [h.panel]; exact ⟨rfl, rfl⟩
    queued := ⟨h.attends.sending, h.attends.frames⟩
    clear := h.clear
    restart := h.restart
    unset := fun unset => h.raised ((s.startLinks_isSet k _).mpr (.inl ⟨rfl, unset⟩))
    damaged := fun spoiled => h.raised ((s.startLinks_isSet k _).mpr (.inr ⟨rfl, spoiled⟩))
    owed := by rw [h.ends]; exact h.only.owed.trans (by rw [h.lit]; rfl)
    pending := by rw [h.ends]; exact h.only.pending.trans (by rw [h.lit]; rfl) }

/-- A start-up reads the Settings Store, the waiting commands and the clock it keeps, and nothing else. -/
theorem State.startUp_congr (boards : BitVec 6) (keep : Bool) (store : v.store = s.store) (pending : v.pending = s.pending)
    (clock : v.clockAfter keep = s.clockAfter keep) : v.startUp boards keep = s.startUp boards keep := by
  have records (k : Clock) : v.reinitialised boards k = s.reinitialised boards k := by
    unfold State.reinitialised; rw [store, pending]
  unfold State.startUp; dsimp only
  rw [clock, records]

/-! ### RESTART and RESET_TAKES_EFFECT (R170, R177) -/

theorem State.exec_resetTakesEffect (running : s.power = .running) (boards : BitVec 6) :
    exec (.resetTakesEffect boards) s = .next (s.restartNow boards) := s.run_running running (·.restartNow boards)

theorem State.restartNow_due {r : RestartPending} (accepted : s.links.restart = some r)
    (due : r.queued = false ∨ (s.links.link r.link).queue = []) (boards : BitVec 6) :
    s.restartNow boards = s.startUp boards r.keepClock := by
  have takes : s.links.restartDue = some r := by
    unfold LinkInterface.restartDue
    rw [accepted]
    exact if_pos (due.imp_right List.isEmpty_iff.mpr)
  unfold State.restartNow
  rw [takes]

theorem State.restartNow_waits {r : RestartPending} (accepted : s.links.restart = some r) (queued : r.queued = true)
    (unsent : (s.links.link r.link).queue ≠ []) (boards : BitVec 6) : s.restartNow boards = s := by
  have waits : s.links.restartDue = none := by
    unfold LinkInterface.restartDue
    rw [accepted]
    refine if_neg ?_
    rintro (unqueued | sent)
    · rw [queued] at unqueued; cases unqueued
    · exact unsent (List.isEmpty_iff.mp sent)
  unfold State.restartNow
  rw [waits]

theorem State.clockAfter_eq (s : State) (keep : Bool) :
    s.clockAfter keep = if keep = true ∧ s.clock.running = true then s.clock else ⟨0, 0, false⟩ := by
  unfold State.clockAfter
  simp only [Bool.and_eq_true]

/-- A RESTART accepted, its answer joining its link's queue where that has room. -/
def State.restarting (s : State) (l : Link) (keep : Bool) : State :=
  { s with links := { s.links with restart := some ⟨keep, l, decide ((s.links.link l).queue.length < 8)⟩ } }

theorem State.restarting_setReceiver (s : State) (l : Link) (keep : Bool) (x : Receiver) :
    (s.setReceiver l x).restarting l keep = (s.restarting l keep).setReceiver l x := by
  cases l <;> rfl

theorem ownRestart_eq (l : Link) (a : RestartArgs) (s : State) : ownRestart l a s =
    if s.store.saving.isSome then .turnedAway s .busy
    else { state := s.restarting l a.keepClock, reply := replyOnly .ok } := rfl

theorem exec_restart_spec (s : State) (o : Origin) (a : RestartArgs) (h : s.Admits .restart o) :
    exec (.restart o (some a)) s = .next
      (if s.store.saving ≠ none then s.answered .restart o ⟨.busy, .bare⟩
      else (s.restarting o.link a.keepClock).answered .restart o ⟨.ok, .bare⟩) := by
  have own := ownRestart_eq o.link a (s.setReceiver o.link .hunting)
  rw [State.restarting_setReceiver] at own
  have call : exec (.restart o (some a)) s = s.runCall .restart o (some a) (ownRestart o.link) := rfl
  rw [call]
  by_cases saving : s.store.saving = none
  · rw [if_neg (not_not.mpr saving)]
    refine State.runCall_answers h (s.restarting o.link a.keepClock) (own.trans (if_neg ?_))
    show ¬ s.store.saving.isSome = true
    rw [saving]
    exact Bool.false_ne_true
  · rw [if_pos saving]
    exact State.runCall_answers h s (own.trans (if_pos (Option.isSome_iff_ne_none.mpr saving)))

theorem restartTakesEffect_spec : Claims.RestartTakesEffect := by
  refine ⟨exec_restart_spec, fun s boards r running accepted => ⟨fun due => ?_, fun queued unsent => ?_,
    fun v running' accepted' due store clock pending => ?_⟩⟩
  · refine ⟨s.startUp boards r.keepClock, ?_, ?_⟩
    · rw [State.exec_resetTakesEffect running, State.restartNow_due accepted due]
    · rw [← State.clockAfter_eq]
      exact s.startUp_startedUp boards r.keepClock
  · rw [State.exec_resetTakesEffect running, State.restartNow_waits accepted queued unsent]
  · have same : v.clockAfter r.keepClock = s.clockAfter r.keepClock := by unfold State.clockAfter; rw [clock]
    rw [State.exec_resetTakesEffect running', State.exec_resetTakesEffect running,
      State.restartNow_due accepted' (due.imp_right And.right), State.restartNow_due accepted (due.imp_right And.left),
      State.startUp_congr boards _ store pending same]

/-! ### POWER_ON, LOSS_OF_POWER and RESET_PIN_LOW (R157, R172, R176) -/

theorem State.cutShort_eq (s : State) : s.cutShort = { s with store := match s.store.saving with
    | some (.commissioning ..) => { s.store with commCopy := .spoiled, saving := none }
    | some (.operating ..) => { s.store with operCopy := .spoiled, saving := none }
    | none => s.store } := by
  unfold State.cutShort State.setStore
  rcases s.store.saving with _ | saving
  · rfl
  · cases saving <;> rfl

theorem powerRows_spec : Claims.PowerRows := by
  intro s u hu
  have cut : s.cutShort = u := s.cutShort_eq.trans hu.symm
  refine ⟨fun boards => ⟨u.startUp boards false, ?_, u.startUp_startedUp boards false⟩, ?_, fun running => ?_,
    fun v boards store pending => ?_⟩
  · rw [← cut]; rfl
  · rw [← cut]; rfl
  · have low : exec .resetPinLow s
        = .next { s.cutShort with power := if s.power = .unsupplied then .unsupplied else .resetHeld } := rfl
    rw [low, cut, running]
    rfl
  · have on (x : State) : exec (.powerOn boards) x = .next (x.cutShort.startUp boards false) := rfl
    have cutStore : v.cutShort.store = s.cutShort.store := by rw [State.cutShort_eq, State.cutShort_eq, store]
    have cutPending : v.cutShort.pending = s.cutShort.pending := by rw [State.cutShort_eq, State.cutShort_eq]; exact pending
    rw [on, on, State.startUp_congr boards false cutStore cutPending rfl]

/-- Settles O58: a start-up is the records the reset leaves with the lamp groups started and their exchange with an allocator that
grants lamp levels alone. -/
theorem restartAndPower : Obligations.RestartAndPower := ⟨restartTakesEffect_spec, powerRows_spec⟩

end Sys2Proof.Machine
end

section
/-! SUPPORT. An invariant that every call, start-up, tick, clock setting and clearing of flags keeps is kept by every step; and the
order of the scenes, the gas thresholds and the sensor limits is one (R26, R77, R95, R96). -/

namespace Sys2Proof.Machine

variable {s t : State} {α : Type} {P : State → Prop}

/-! ### Invariants of every step -/

/-- What makes a property of states an invariant: the ordinary commands and the events of a tick keep it, a start-up keeps it, and
it reads neither the clock, the flags that are set, nor the commands that wait. -/
structure State.Invariant (P : State → Prop) : Prop where
  calls   : ∀ {s t}, State.CallKeeps s t → P s → P t
  ticks   : ∀ {s t}, State.TickSound s t → P s → P t
  startUp : ∀ {s} boards keep, P s → P (State.startUp s boards keep)
  clock   : ∀ {s : State} k, P s → P { s with clock := k }
  flags   : ∀ {s : State} f, P s → P { s with links := { s.links with flags := f } }
  pending : ∀ {s : State} q, P s → P { s with pending := q }

theorem State.whenRunning_invariant {f : State → State} (h : P (f s)) (hs : P s) : P (s.whenRunning f) := by
  unfold State.whenRunning
  split
  · exact h
  · exact hs

namespace State.Invariant

variable (inv : State.Invariant P)
include inv

theorem keeps (h : s.Keeps t) (hs : P s) : P t := inv.calls h.callKeeps hs

theorem takeCall {own : α → State → Taken} (k : CallKind) (o : Origin) (body : Body α)
    (h : ∀ a s, P s → P ((own a s).after ((own a s).state.answer k o (own a s).reply))) (hs : P s) :
    P (s.takeCall k o body own) :=
  State.takeCall_keeps (fun s t => P s → P t) (fun h k x => k (h x)) (fun _ => id)
    (fun s l => inv.calls (s.callKeeps_setReceiver l _)) (fun s k o r => inv.calls (s.callSound_answer k o r).toCallKeeps)
    s k o body own h hs

theorem clockSet (a : ClockSetArgs) (k : CallKind) (o : Origin) (hs : P s) :
    P ((ownClockSet a s).after ((ownClockSet a s).state.answer k o (ownClockSet a s).reply)) := by
  unfold ownClockSet
  dsimp only
  split
  · exact inv.calls (s.callSound_answer k o _).toCallKeeps hs
  · exact inv.keeps (State.keeps_setEvent _ _ _)
      (inv.calls (State.callSound_answer _ k o _).toCallKeeps (inv.clock _ hs))

theorem restartNow (boards : BitVec 6) (hs : P s) : P (s.restartNow boards) := by
  unfold State.restartNow
  split
  · exact hs
  · exact inv.startUp boards _ hs

theorem tick (capture : Capture) (order : List TickEvent) (hs : P s) : P (s.tick capture order) := by
  obtain ⟨u, v, due, rfl, events⟩ := s.tick_spec capture order
  exact inv.ticks events (inv.clock _ (inv.keeps due hs))

theorem exec (c : Instr) (hs : P s) : ∃ t, Machine.exec c s = .next t ∧ P t := by
  by_cases h : Instr.ordinary c = true
  · obtain ⟨t, e, k⟩ := exec_keepsCall c s h
    exact ⟨t, e, inv.calls k hs⟩
  · cases c with
    | powerOn boards => exact ⟨_, rfl, inv.startUp boards false (inv.keeps s.keeps_cutShort hs)⟩
    | resetTakesEffect boards => exact ⟨_, rfl, State.whenRunning_invariant (inv.restartNow boards hs) hs⟩
    | tick capture order => exact ⟨_, rfl, State.whenRunning_invariant (inv.tick capture order hs) hs⟩
    | clockSet o body =>
      exact ⟨_, rfl, State.whenRunning_invariant (inv.takeCall _ o body (fun a _ => inv.clockSet a _ o) hs) hs⟩
    | flagsClear o body =>
      exact ⟨_, rfl, State.whenRunning_invariant (inv.takeCall _ o body
        (fun _ _ hu => inv.calls (State.callSound_answer _ _ o _).toCallKeeps (inv.flags _ hu)) hs) hs⟩
    | _ => exact absurd rfl h

/-- A step runs one command, or idles. -/
theorem step (hs : P s) (h : Machine.step s = .next t) : P t := by
  unfold Machine.step at h
  split at h
  · cases h; exact hs
  · rename_i c rest _
    obtain ⟨u, e, hu⟩ := inv.exec c (inv.pending rest hs)
    cases e.symm.trans h
    exact hu

end State.Invariant

/-! ### The order of the settings (O2) -/

/-- A start-up takes the operating tables from the stored copy or the defaults, both in order (R26, R176). -/
theorem State.settingsOrdered_invariant : State.Invariant State.SettingsOrdered where
  calls   := fun h => h.ordered
  ticks   := fun h => h.ordered
  startUp := fun boards keep o => (State.keeps_startUp _ boards keep).ordered (State.reinitialised_ordered _ boards _ o)
  clock   := fun _ o => o.of_eq rfl rfl
  flags   := fun _ o => o.of_eq rfl rfl
  pending := fun _ o => o.of_eq rfl rfl

/-- Settles O2: the order of the settings is an invariant of every step. -/
theorem stepKeepsSettingsOrdered : Obligations.StepKeepsSettingsOrdered :=
  fun _ _ o h => State.settingsOrdered_invariant.step o h

end Sys2Proof.Machine
end

section
/-! SUPPORT. The staging list as a transition applies it, key by key, and as it takes an edit (R31, R32, R34, R38). -/

namespace Sys2Proof.Machine

/-! ### What an edit does to the tables (R34) -/

/-- The entry, record or scene that a key names is the same in two calendars. -/
def Calendar.SameAt (c d : Calendar) : EditKey → Prop
  | .entry i => d.entries.get i = c.entries.get i
  | .params p => d.params.get (phaseIndex p) = c.params.get (phaseIndex p)
  | .scene p g => d.sceneAt p g = c.sceneAt p g

/-- Calendar `d` holds, at the key of an edit, what the edit makes of calendar `c` (R34, R38). -/
def Calendar.Took (c d : Calendar) (limit : Fin 8 → Nat → Nat) : Edit → Prop
  | .entry i e => d.entries.get i = e
  | .params p f => d.params.get (phaseIndex p) = (c.params.get (phaseIndex p)).write (f.clamp limit)
  | .scene p g level vacant (some floor) => d.sceneAt p g = orderScene level vacant floor
  | .scene p g level vacant none => d.sceneAt p g = orderPanelScene level vacant (c.sceneAt p g).floor

variable {b c d : Calendar} {limit : Fin 8 → Nat → Nat} {k : EditKey} {e : Edit}

theorem Calendar.SameAt.refl (c : Calendar) (k : EditKey) : c.SameAt c k := by cases k <;> exact Eq.refl _

theorem Calendar.SameAt.trans (h : b.SameAt c k) (h' : c.SameAt d k) : b.SameAt d k := by
  cases k <;> exact Eq.trans h' h

/-- What an edit makes of a calendar rests on the place it names alone. -/
theorem Calendar.Took.of_same (h : c.Took d limit e) (same : b.SameAt c e.key) : b.Took d limit e := by
  cases e with
  | entry i x => exact h
  | params p f => exact h.trans (congrArg (PhaseParams.write · (f.clamp limit)) same)
  | scene p g level vacant floor =>
    cases floor with
    | some floor => exact h
    | none => exact h.trans (congrArg (fun x : Scene => orderPanelScene level vacant x.floor) same)

/-- What an edit made stands while its place stands. -/
theorem Calendar.Took.same (h : b.Took c limit e) (same : c.SameAt d e.key) : b.Took d limit e := by
  cases e with
  | entry i x => exact Eq.trans same h
  | params p f => exact Eq.trans same h
  | scene p g level vacant floor => cases floor <;> exact Eq.trans same h

theorem Calendar.applyEdit_took (c : Calendar) (limit : Fin 8 → Nat → Nat) (e : Edit) :
    c.Took (c.applyEdit limit e) limit e := by
  cases e with
  | entry i x => exact Table.get_set_same _ _ _
  | params p f => exact (Table.get_modify _ _ _ _).trans (if_pos rfl)
  | scene p g level vacant floor =>
    cases floor <;> exact (c.sceneAt_putScene p p g g _).trans (if_pos ⟨rfl, rfl⟩)

theorem Calendar.applyEdit_same (c : Calendar) (limit : Fin 8 → Nat → Nat) (h : e.key ≠ k) :
    c.SameAt (c.applyEdit limit e) k := by
  have scene (p : Phase) (g : Fin 24) (x : Scene) (h : EditKey.scene p g ≠ k) : c.SameAt (c.putScene p g x) k := by
    cases k with
    | entry i => exact Eq.refl _
    | params q => exact Eq.refl _
    | scene q i =>
      refine (c.sceneAt_putScene p q g i x).trans (if_neg fun same => h ?_)
      rw [same.1, same.2]
  cases e with
  | entry i x =>
    cases k with
    | entry j => exact Table.get_set_other _ _ _ _ fun same => h (congrArg EditKey.entry same)
    | params p => exact Eq.refl _
    | scene p g => exact Eq.refl _
  | params p f =>
    cases k with
    | entry j => exact Eq.refl _
    | params q =>
      exact (Table.get_modify _ _ _ _).trans (if_neg fun same => h (congrArg EditKey.params (phaseIndex_injective same)))
    | scene q g => exact Eq.refl _
  | scene p g level vacant floor => cases floor <;> exact scene p g _ h

/-! ### The list applied in order (R34) -/

theorem Calendar.applyAll_same (limit : Fin 8 → Nat → Nat) (l : List StagedEdit) (c : Calendar)
    (h : ∀ x ∈ l, x.edit.key ≠ k) : c.SameAt (l.foldl (fun c x => c.applyEdit limit x.edit) c) k := by
  induction l generalizing c with
  | nil => exact .refl c k
  | cons x l ih =>
    exact (c.applyEdit_same limit (h x List.mem_cons_self)).trans (ih _ fun y hy => h y (List.mem_cons_of_mem x hy))

/-- With one edit for each key, each edit has its effect whatever stands before and after it. -/
theorem Calendar.applyAll_took (limit : Fin 8 → Nat → Nat) (l : List StagedEdit) (c : Calendar)
    (once : (l.map fun x => x.edit.key).Nodup) {x : StagedEdit} (hx : x ∈ l) :
    c.Took (l.foldl (fun c x => c.applyEdit limit x.edit) c) limit x.edit := by
  induction l generalizing c with
  | nil => cases hx
  | cons y l ih =>
    obtain ⟨hy, once⟩ := List.nodup_cons.mp once
    have apart (z : StagedEdit) (hz : z ∈ l) : z.edit.key ≠ y.edit.key := fun same =>
      hy (List.mem_map.mpr ⟨z, hz, same⟩)
    rcases List.mem_cons.mp hx with rfl | hx
    · exact (c.applyEdit_took limit x.edit).same (Calendar.applyAll_same limit l _ apart)
    · exact (ih _ once hx).of_same (c.applyEdit_same limit (apart x hx).symm)

theorem Calendar.not_staged (h : c.isStaged k = false) (x : StagedEdit) (hx : x ∈ c.staging) : x.edit.key ≠ k := by
  intro same
  have : c.isStaged k = true := List.any_eq_true.mpr ⟨x, hx, beq_iff_eq.mpr same⟩
  rw [h] at this
  cases this

theorem stagingListIsApplied_spec : Claims.StagingListIsApplied := by
  intro c limit once
  have unnamed (k : EditKey) (h : c.isStaged k = false) : c.SameAt (c.applyStaging limit) k := by
    have same := Calendar.applyAll_same limit c.staging c (Calendar.not_staged h)
    cases k <;> exact same
  refine ⟨fun x hx => ?_, fun i => unnamed (.entry i), fun p => unnamed (.params p), fun p g => unnamed (.scene p g), rfl⟩
  have took := Calendar.applyAll_took limit c.staging c once hx
  obtain ⟨e, l⟩ := x
  cases e with
  | entry i y => exact took
  | params p f => exact took
  | scene p g level vacant floor => cases floor <;> exact took

/-! ### An edit offered to the list (R32, R38) -/

theorem Calendar.stage_new (c : Calendar) (e : Edit) (l : Link) (new : c.isStaged e.key = false) : c.stage e l
    = if c.staging.length < 16 then some { c with staging := c.staging ++ [⟨e, l⟩] } else none :=
  if_neg (ne_true_of_eq_false new)

theorem stagingListTakesEdits_spec : Claims.StagingListTakesEdits := by
  intro c e l
  refine ⟨fun new room => (c.stage_new e l new).trans (if_pos room),
    fun new full => (c.stage_new e l new).trans (if_neg (Nat.not_lt.mpr full)), fun present => ?_⟩
  refine ⟨_, if_pos present, rfl, c.stage_keys e l, fun n x hx => ?_⟩
  have taken := List.getElem?_map (f := fun x : StagedEdit => if x.edit.key = e.key then ⟨x.edit.join e, l⟩ else x)
    (l := c.staging) (i := n)
  rw [hx] at taken
  refine ⟨fun other => taken.trans (congrArg some (if_neg other)), fun same => taken.trans ?_⟩
  refine congrArg some ((if_pos same).trans ?_)
  obtain ⟨x, link⟩ := x
  cases x with
  | entry i y => cases e <;> rfl
  | params p f => cases e <;> rfl
  | scene p g level vacant floor =>
    cases e with
    | entry i y => rfl
    | params q f => rfl
    | scene q i level' vacant' floor' => cases same; rfl

/-- Settles O17. -/
theorem stagingList : Obligations.StagingList := ⟨stagingListIsApplied_spec, stagingListTakesEdits_spec⟩

end Sys2Proof.Machine
end

section
/-! SUPPORT. PHASE_WRITE: the fields its items name, those each link's filter keeps, and how they are written or staged (R28, R30,
R32, R33, R37). -/

namespace Sys2Proof.Machine

variable {s : State} {l : Link}

/-! ### The fields an item list names (R28) -/

/-- An item that no phase parameter record has a field for (R28). -/
def PhaseItem.Refused (i : PhaseItem) : Prop := i = .noSuchField ∨ ∃ z v, i = .setpoint z v ∧ 7 < z.toNat

theorem PhaseFields.add_eq_none (f : PhaseFields) (i : PhaseItem) : f.add i = none ↔ PhaseItem.Refused i := by
  cases i with
  | setpoint z v =>
    by_cases inside : z.toNat < 8
    · simp [PhaseFields.add, PhaseItem.Refused, row, inside]; omega
    · simp [PhaseFields.add, PhaseItem.Refused, row, inside]; omega
  | _ => simp [PhaseFields.add, PhaseItem.Refused]

/-- What an item that is taken does: it sets the one field it names. -/
theorem PhaseFields.add_eq_some {f g : PhaseFields} {i : PhaseItem} (h : f.add i = some g) :
    (∃ y v z, i = .setpoint y v ∧ y.toNat = Fin.val z ∧ g = { f with setpoints := f.setpoints.set z (some v.toNat) })
    ∨ (∃ v, i = .ventMinimum v ∧ g = { f with vent := some v.toNat })
    ∨ (∃ v, i = .fallback v ∧ g = { f with fallback := some v.toNat })
    ∨ (∃ v, i = .longOpen v ∧ g = { f with longOpen := some v.toNat })
    ∨ ∃ v, i = .phaseCap v ∧ g = { f with cap := some v.toNat } := by
  cases i with
  | setpoint y v =>
    obtain ⟨z, named, rfl⟩ := Option.map_eq_some_iff.mp h
    unfold row at named
    split at named
    · cases named; exact .inl ⟨y, v, _, rfl, rfl, rfl⟩
    · cases named
  | ventMinimum v => cases h; exact .inr (.inl ⟨v, rfl, rfl⟩)
  | fallback v => cases h; exact .inr (.inr (.inl ⟨v, rfl, rfl⟩))
  | longOpen v => cases h; exact .inr (.inr (.inr (.inl ⟨v, rfl, rfl⟩)))
  | phaseCap v => cases h; exact .inr (.inr (.inr (.inr ⟨v, rfl, rfl⟩)))
  | noSuchField => cases h

theorem PhaseFields.ofItems_eq_none (items : List PhaseItem) (f : PhaseFields) :
    PhaseFields.ofItems items f = none ↔ ∃ i ∈ items, PhaseItem.Refused i := by
  induction items generalizing f with
  | nil => simp [PhaseFields.ofItems]
  | cons i items ih =>
    rw [PhaseFields.ofItems, List.exists_mem_cons_iff, ← f.add_eq_none i]
    cases f.add i with
    | none => simp
    | some g => simp [ih]

/-- A field that each item sets to what `pick` finds in it, or leaves, ends as the last item that names it says. -/
theorem PhaseFields.ofItems_last {read : PhaseFields → Option Nat} {pick : PhaseItem → Option Nat}
    (item : ∀ {f g i}, PhaseFields.add f i = some g → read g = (pick i).or (read f)) {items : List PhaseItem}
    {f g : PhaseFields} (h : PhaseFields.ofItems items f = some g) :
    read g = (items.reverse.findSome? pick).or (read f) := by
  induction items generalizing f with
  | nil => cases h; rfl
  | cons i items ih =>
    obtain ⟨u, taken, rest⟩ := Option.bind_eq_some_iff.mp h
    rw [ih rest, item taken, List.reverse_cons, List.findSome?_append, Option.or_assoc, List.findSome?_singleton]

theorem phaseItemsNamed_spec : Claims.PhaseItemsNamed := by
  intro items
  refine ⟨(PhaseFields.ofItems_eq_none items _).trans ⟨?_, ?_⟩, fun f named => ⟨fun z => ?_, ?_, ?_, ?_, ?_⟩⟩
  · rintro ⟨i, hi, rfl | ⟨z, v, rfl, outside⟩⟩
    · exact .inl hi
    · exact .inr ⟨z, v, hi, outside⟩
  · rintro (hi | ⟨z, v, hi, outside⟩)
    · exact ⟨_, hi, .inl rfl⟩
    · exact ⟨_, hi, .inr ⟨z, v, rfl, outside⟩⟩
  · refine (PhaseFields.ofItems_last (read := fun f => f.setpoints.get z) (fun {f g i} taken => ?_) named).trans
      ((congrArg (Option.or _) (Table.get_fill none z)).trans (Option.or_none))
    obtain ⟨y, v, x, rfl, hy, rfl⟩ | ⟨v, rfl, rfl⟩ | ⟨v, rfl, rfl⟩ | ⟨v, rfl, rfl⟩ | ⟨v, rfl, rfl⟩ :=
      PhaseFields.add_eq_some taken
    · dsimp only
      rw [Table.get_set, hy]
      by_cases same : x = z
      · rw [if_pos same, if_pos (congrArg Fin.val same), Option.some_or]
      · rw [if_neg same, if_neg fun h => same (Fin.ext h), Option.none_or]
    all_goals rfl
  all_goals
    refine (PhaseFields.ofItems_last (fun {f g i} taken => ?_) named).trans Option.or_none
    obtain ⟨y, v, x, rfl, hy, rfl⟩ | ⟨v, rfl, rfl⟩ | ⟨v, rfl, rfl⟩ | ⟨v, rfl, rfl⟩ | ⟨v, rfl, rfl⟩ :=
      PhaseFields.add_eq_some taken
    all_goals rfl

/-! ### The fields clamped and written (R28, R30) -/

theorem phaseFieldsClampedAndWritten_spec : Claims.PhaseFieldsClampedAndWritten := by
  rintro ⟨setpoints, vent, fallback, longOpen, cap⟩ limit r
  refine ⟨fun z => ?_, ?_, ?_, ?_, ?_⟩
  · simp only [PhaseParams.write, PhaseFields.clamp, Table.get_mapIdx]
    cases setpoints.get z <;> rfl
  · cases vent <;> rfl
  · cases fallback <;> rfl
  · cases longOpen <;> rfl
  · cases cap <;> rfl

/-! ### The fields a write keeps (R28, R37) -/

theorem okOrClamped_bne {β : Type} [DecidableEq β] (x y : β) : okOrClamped (x != y) = if x = y then .ok else .clamped := by
  by_cases h : x = y <;> simp [okOrClamped, h]

theorem State.filterFields_supervisor (s : State) (f : PhaseFields) : s.filterFields .supervisor f
    = (f.clamp s.setpointLimit, if f.clamp s.setpointLimit = f then .ok else .clamped) :=
  congrArg (Prod.mk _) (okOrClamped_bne _ _)

theorem State.filterFields_panel (s : State) (f g : PhaseFields)
    (hg : g = f.setpointsOnly.clamp fun z v => s.setpointLimit z ((s.climate.zones.get z).config.clampBand v)) :
    s.filterFields .panel f
      = (g, if f.setpointsOnly ≠ f then .partially else if g = f then .ok else .clamped) := by
  rw [ite_not, ← okOrClamped_bne, hg]
  rfl

/-! ### A pending edit removed (R33) -/

theorem Calendar.unstage_eq (c : Calendar) (k : EditKey) :
    c.unstage k = { c with staging := c.staging.filter fun x => x.edit.key ≠ k } := by
  unfold Calendar.unstage
  congr 2
  funext x
  rw [bne, beq_eq_decide, decide_not]

/-! ### PHASE_WRITE in its block -/

section
variable {a : PhaseWriteArgs} {p : Phase} {f g : PhaseFields} {st : Status} {m : WriteMode}

theorem ownPhaseWrite_range (h : a.phase = none ∨ a.items = [] ∨ (∃ i ∈ a.items, PhaseItem.Refused i) ∨ a.mode = none) :
    ownPhaseWrite l a s = .turnedAway s .range := by
  unfold ownPhaseWrite
  split
  · rename_i p f m hp hf hm
    rcases h with h | h | h | h
    · cases h.symm.trans hp
    · rw [if_pos (List.isEmpty_iff.mpr h)]
    · cases ((PhaseFields.ofItems_eq_none _ _).mpr h).symm.trans hf
    · cases h.symm.trans hm
  · rfl

/-- A write whose filter keeps nothing (R37). -/
theorem ownPhaseWrite_nothing (s : State) (hp : a.phase = some p) (hi : a.items ≠ [])
    (hf : PhaseFields.ofItems a.items .empty = some f) (hk : s.filterFields l f = (g, st)) (hm : a.mode = some m)
    (hg : g = .empty) : ownPhaseWrite l a s = { state := s, reply := ⟨st, .phaseFields g⟩ } := by
  unfold ownPhaseWrite
  simp only [hp, hf, hm, hk]
  rw [if_neg (mt List.isEmpty_iff.mp hi), if_pos hg]

theorem ownPhaseWrite_atOnce (s : State) (hp : a.phase = some p) (hi : a.items ≠ [])
    (hf : PhaseFields.ofItems a.items .empty = some f) (hk : s.filterFields l f = (g, st)) (hm : a.mode = some .atOnce)
    (hg : g ≠ .empty) : ownPhaseWrite l a s =
      { state := s.setCalendar { s.calendar with
          params := s.calendar.params.set (phaseIndex p) ((s.paramsOf p).write g)
          staging := s.calendar.staging.filter fun x => x.edit.key ≠ .params p }
        reply := ⟨st, .phaseFields g⟩
        after := fun t => t.fieldsChanged p g } := by
  unfold ownPhaseWrite
  simp only [hp, hf, hm, hk]
  rw [if_neg (mt List.isEmpty_iff.mp hi), if_neg hg, Calendar.unstage_eq]
  rfl

theorem ownPhaseWrite_staged (s : State) (hp : a.phase = some p) (hi : a.items ≠ [])
    (hf : PhaseFields.ofItems a.items .empty = some f) (hk : s.filterFields l f = (g, st)) (hm : a.mode = some .staged)
    (hg : g ≠ .empty) : ownPhaseWrite l a s = s.stageEdit (.params p g) l ⟨st, .phaseFields g⟩ := by
  unfold ownPhaseWrite
  simp only [hp, hf, hm, hk]
  rw [if_neg (mt List.isEmpty_iff.mp hi), if_neg hg]

end

theorem phaseWrite_spec : Claims.PhaseWrite := by
  refine ⟨fun s o a p f g st h hp hi hf hk => ?_, fun s o a h hx => ?_⟩
  · have kept : (s.setReceiver o.link .hunting).filterFields o.link f = (g, st) := by
      obtain ⟨link, hg, rfl⟩ | ⟨link, hg, rfl⟩ := hk
      · rw [link, hg]; exact s.filterFields_supervisor f
      · rw [link]; exact s.filterFields_panel f g hg
    by_cases nothing : g = .empty
    · rw [if_pos nothing, if_pos nothing]
      exact ⟨fun hm => State.runCall_answers h s (ownPhaseWrite_nothing _ hp hi hf kept hm nothing),
        fun hm => State.runCall_answers h s (ownPhaseWrite_nothing _ hp hi hf kept hm nothing)⟩
    · rw [if_neg nothing, if_neg nothing]
      refine ⟨fun hm => ?_, fun hm => State.runCall_stages h (ownPhaseWrite_staged _ hp hi hf kept hm nothing)⟩
      exact State.runCall_hands (f := fun t => t.fieldsChanged p g) h
        { s with calendar := { s.calendar with
            params := s.calendar.params.set (phaseIndex p) ((s.paramsOf p).write g)
            staging := s.calendar.staging.filter fun x => x.edit.key ≠ .params p } }
        (ownPhaseWrite_atOnce _ hp hi hf kept hm nothing)
  · refine State.runCall_turnedAway h (ownPhaseWrite_range ?_)
    obtain hp | hi | hi | ⟨z, v, hi, outside⟩ | hm := hx
    · exact .inl hp
    · exact .inr (.inl hi)
    · exact .inr (.inr (.inl ⟨_, hi, .inl rfl⟩))
    · exact .inr (.inr (.inl ⟨_, hi, .inr ⟨z, v, rfl, outside⟩⟩))
    · exact .inr (.inr (.inr hm))

/-- Settles O22. -/
theorem phaseWriteCall : Obligations.PhaseWriteCall :=
  ⟨phaseWrite_spec, phaseItemsNamed_spec, phaseFieldsClampedAndWritten_spec⟩

end Sys2Proof.Machine
end

section
/-! SUPPORT. SCENE_WRITE: the scene each link's write is put in order as, and how it is written or staged (R26, R27, R29, R30, R32,
R33, R38). -/

namespace Sys2Proof.Machine

variable {s : State} {a : SceneWriteArgs} {p : Phase} {g : Fin 24} {m : WriteMode}

/-! ### The order of a scene (R26, R27, R38) -/

theorem scenesPutInOrder_spec : Claims.ScenesPutInOrder :=
  ⟨fun level vacant floor => ⟨orderScene_ordered level vacant floor, rfl, rfl, rfl⟩, by decide, by decide,
   fun level vacant _ le => ⟨orderPanelScene_ordered level vacant le, rfl, rfl, rfl⟩⟩

/-- Values taken as at most 100 order as they stand (R38). -/
theorem orderPanelScene_min (level vacant floor : Nat) :
    orderPanelScene (min 100 level) (min 100 vacant) floor = orderPanelScene level vacant floor := by
  unfold orderPanelScene
  simp only [← Nat.min_assoc, Nat.min_self]

/-- A supervisor's write is CLAMPED when the order has moved one of its values (R27). -/
theorem sceneMoved_eq (x : Scene) (level vacant floor : Nat) :
    okOrClamped (x.level != level || x.vacant != vacant || x.floor != floor)
      = if x = ⟨level, vacant, floor⟩ then .ok else .clamped := by
  obtain ⟨xl, xv, xf⟩ := x
  simp only [okOrClamped, Scene.mk.injEq, Bool.or_eq_true, bne_iff_ne]
  by_cases same : xl = level ∧ xv = vacant ∧ xf = floor
  · rw [if_pos same, if_neg (by tauto)]
  · rw [if_neg same, if_pos (by tauto)]

/-! ### SCENE_WRITE in its block -/

/-- The answer to the supervisor's write of a scene (R29). -/
def supervisorReply (a : SceneWriteArgs) (x : Scene) : Reply :=
  ⟨if x = ⟨a.level.toNat, a.vacant.toNat, a.floor.toNat⟩ then .ok else .clamped, .scene x⟩

theorem ownSceneWrite_supervisor (s : State) (hp : a.phase = some p) (hg : a.group.toNat = g.val)
    (hm : a.mode = some m) : ownSceneWrite .supervisor a s = supervisorScene p g a m s := by
  unfold ownSceneWrite
  simp only [hp, row_of_val hg, hm]

theorem ownSceneWrite_panel (s : State) (hp : a.phase = some p) (hg : a.group.toNat = g.val)
    (hm : a.mode = some m) : ownSceneWrite .panel a s = panelScene p g a m s := by
  unfold ownSceneWrite
  simp only [hp, row_of_val hg, hm]

theorem ownSceneWrite_range {l : Link} (h : a.phase = none ∨ 23 < a.group.toNat ∨ a.mode = none) :
    ownSceneWrite l a s = .turnedAway s .range := by
  unfold ownSceneWrite
  split
  · rename_i p g m hp hg hm
    rcases h with h | h | h
    · cases h.symm.trans hp
    · cases (row_outside (n := 24) h).symm.trans hg
    · cases h.symm.trans hm
  · rfl

/-- A scene written at once: the scene put, a pending edit of it removed (R30, R33). -/
theorem State.writeScene_eq (s : State) (p : Phase) (g : Fin 24) (x : Scene) (r : Reply) : s.writeScene p g x r =
    { state := s.setCalendar { s.calendar with
        scenes := s.calendar.scenes.set (phaseIndex p) ((s.calendar.scenes.get (phaseIndex p)).set g x)
        staging := s.calendar.staging.filter fun y => y.edit.key ≠ .scene p g }
      reply := r
      after := fun t => t.sceneWritten p g } := by
  unfold State.writeScene
  rw [Calendar.unstage_eq]
  rfl

theorem supervisorScene_eq (s : State) (a : SceneWriteArgs) (p : Phase) (g : Fin 24) {x : Scene}
    (hx : x = orderScene a.level.toNat a.vacant.toNat a.floor.toNat) :
    supervisorScene p g a .atOnce s = s.writeScene p g x (supervisorReply a x)
    ∧ supervisorScene p g a .staged s
      = s.stageEdit (.scene p g x.level x.vacant (some x.floor)) .supervisor (supervisorReply a x) := by
  unfold supervisorReply
  rw [← sceneMoved_eq, hx]
  exact ⟨rfl, rfl⟩

theorem panelScene_atOnce (s : State) (a : SceneWriteArgs) (p : Phase) (g : Fin 24) {x : Scene}
    (hx : x = orderPanelScene a.level.toNat a.vacant.toNat (s.sceneOf p g).floor) :
    panelScene p g a .atOnce s = s.writeScene p g x ⟨.partially, .panelScene x.level x.vacant⟩ := by
  unfold panelScene
  dsimp only
  rw [orderPanelScene_min, ← hx]

theorem sceneWrite_spec : Claims.SceneWrite := by
  refine ⟨fun s o a p g x r h hp hg hx => ?_, fun s o a h hx => State.runCall_turnedAway h (ownSceneWrite_range hx)⟩
  refine ⟨fun hm => ?_, fun hm link => ?_, fun hm link => ?_⟩
  · have own : ownSceneWrite o.link a (s.setReceiver o.link .hunting)
        = (s.setReceiver o.link .hunting).writeScene p g x r := by
      obtain ⟨link, hx, rfl⟩ | ⟨link, hx, rfl⟩ := hx
      · rw [link, ownSceneWrite_supervisor _ hp hg hm]
        exact (supervisorScene_eq _ a p g hx).1
      · rw [link, ownSceneWrite_panel _ hp hg hm]
        exact panelScene_atOnce _ a p g hx
    rw [State.writeScene_eq] at own
    exact State.runCall_hands (f := fun t => t.sceneWritten p g) h
      { s with calendar := { s.calendar with
          scenes := s.calendar.scenes.set (phaseIndex p) ((s.calendar.scenes.get (phaseIndex p)).set g x)
          staging := s.calendar.staging.filter fun y => y.edit.key ≠ .scene p g } } own
  · obtain ⟨-, hx, rfl⟩ | ⟨panel, -⟩ := hx
    · refine State.runCall_stages h ?_
      rw [link, ownSceneWrite_supervisor _ hp hg hm]
      exact (supervisorScene_eq _ a p g hx).2
    · cases link.symm.trans panel
  · refine State.runCall_stages h ?_
    rw [link, ownSceneWrite_panel _ hp hg hm]
    rfl

/-- Settles O23. -/
theorem sceneWriteCall : Obligations.SceneWriteCall := ⟨sceneWrite_spec, scenesPutInOrder_spec⟩

end Sys2Proof.Machine
end

section
/-! SUPPORT. Table-change events: what a field or a scene written for the phase in force hands to the Door Unit, the Load Allocator
and the Lighting Unit (R30, R47, R106, R109, R138). -/

namespace Sys2Proof.Machine

variable {s t : State} {f : PhaseFields}

/-! ### The doors compared with a written long-open limit (R47) -/

/-- What the Door Unit does of a table-change event: the OPEN doors compared where a long-open limit is written. -/
def State.comparedFor (s : State) (f : PhaseFields) : State := if f.longOpen.isSome then s.compareDoors else s

theorem State.comparedFor_frame (s : State) (f : PhaseFields) :
    (s.comparedFor f).calendar = s.calendar ∧ (s.comparedFor f).budget = s.budget := by
  unfold State.comparedFor
  split
  · have only := s.compares_all.only
    generalize s.compareDoors = t at only
    rw [only]
    exact ⟨rfl, rfl⟩
  · exact ⟨rfl, rfl⟩

theorem State.compareDoors_channel (s : State) (d : Fin 32) : s.compareDoors.channel d = (s.channel d).compared s := by
  have only := s.compares_all.only
  generalize s.compareDoors = t at only
  rw [only]
  exact (Table.get_mapIdx _ _ _).trans (if_pos (mem_indices d))

theorem State.compareDoors_held (h : ∃ d, s.reaching d = true) : s.compareDoors.links.isSet .doorHeld = true :=
  s.compares_all.flag (h.imp fun d reaching => ⟨mem_indices d, reaching⟩)

theorem State.compareDoors_below (h : ∀ d, s.reaching d = false) : s.compareDoors = s :=
  s.compares_all.nothing fun d _ => h d

/-! ### The fields written for the phase in force -/

theorem State.fieldsChanged_inForce (s : State) (f : PhaseFields) : s.fieldsChanged s.phase f
    = if f.cap.isSome then (s.comparedFor f).takePhaseCap else s.comparedFor f := if_pos rfl

theorem State.fieldsChanged_nothing {p : Phase} (h : p ≠ s.phase ∨ f.longOpen = none ∧ f.cap = none) :
    s.fieldsChanged p f = s := by
  unfold State.fieldsChanged
  split
  · next same =>
    obtain ⟨limit, cap⟩ := h.resolve_left (not_not.mpr same)
    rw [limit, cap]
    rfl
  · rfl

/-- The allocator's part of the event moves no channel and clears no flag. -/
theorem State.fieldsChanged_doors (s : State) (f : PhaseFields) :
    (s.fieldsChanged s.phase f).doors.channels = (s.comparedFor f).doors.channels
    ∧ (s.comparedFor f).links.keepsFlags (s.fieldsChanged s.phase f).links := by
  rw [State.fieldsChanged_inForce]
  split
  · have taken := (s.comparedFor f).takePhaseCap_grants
    exact ⟨taken.channels, taken.links.flags⟩
  · exact ⟨rfl, fun _ => id⟩

theorem State.fieldsChanged_limit (s : State) (h : f.longOpen ≠ none) :
    (∀ d, (s.fieldsChanged s.phase f).channel d = (s.channel d).compared s)
    ∧ ((∃ d, s.reaching d = true) → (s.fieldsChanged s.phase f).links.isSet .doorHeld = true)
    ∧ ((∀ d, s.reaching d = false) → f.cap = none → s.fieldsChanged s.phase f = s) := by
  have compared : s.comparedFor f = s.compareDoors := if_pos (Option.isSome_iff_ne_none.mpr h)
  obtain ⟨channels, flags⟩ := s.fieldsChanged_doors f
  rw [compared] at channels flags
  refine ⟨fun d => ?_, fun reached => flags _ (State.compareDoors_held reached), fun below cap => ?_⟩
  · exact (congrArg (Table.get · d) channels).trans (s.compareDoors_channel d)
  · rw [State.fieldsChanged_inForce, compared, cap, State.compareDoors_below below]
    rfl

/-- A written cap is taken after the doors are compared (R106, R109, assumption 40). -/
theorem State.fieldsChanged_cap (s u v : State) (h : f.cap ≠ none)
    (hu : u = s.fieldsChanged s.phase { f with cap := none })
    (hv : v = { u with budget := { u.budget with phaseCap := (s.paramsOf s.phase).cap } }) :
    s.fieldsChanged s.phase f = (if v.budget.capInForce = s.budget.capInForce then v else v.passAndHand)
    ∧ (s.fieldsChanged s.phase f).budget.phaseCap = (s.paramsOf s.phase).cap ∧ u.budget = s.budget := by
  have compared : u = s.comparedFor f := hu.trans (s.fieldsChanged_inForce _)
  have taken : s.fieldsChanged s.phase f = u.takePhaseCap := by
    rw [State.fieldsChanged_inForce, ← compared, if_pos (Option.isSome_iff_ne_none.mpr h)]
  obtain ⟨calendar, budget⟩ := s.comparedFor_frame f
  rw [← compared] at calendar budget
  have params : (u.paramsOf u.phase).cap = (s.paramsOf s.phase).cap := by
    unfold State.paramsOf State.phase
    rw [calendar]
  refine ⟨?_, ?_, budget⟩
  · rw [taken, ← budget]
    exact u.takePhaseCap_eq v (by rw [hv, params])
  · obtain ⟨phaseCap, -⟩ := u.takePhaseCap_grants.caps
    rw [taken, phaseCap]
    exact params

/-! ### A scene written for the phase in force (R138) -/

/-- The group's record is recomputed with the scene in force; the exchange with the allocator moves no desired level. -/
theorem State.sceneWritten_desired (s : State) (g : Fin 24) :
    ((s.sceneWritten s.phase g).lighting.groups.get g).desired
      = (s.lighting.groups.get g).desiredNow (s.scene g) s.lighting.taken := by
  have written : s.sceneWritten s.phase g = s.sceneChanged g := if_pos rfl
  have exchanged : (s.groupsDo [g] recomputed).1.GrantsOnly (s.sceneChanged g) := Handed.grantsOnly_settle _
  have group : (s.groupsDo [g] recomputed).1.lighting.groups.get g
      = ((s.lighting.groups.get g).recompute (s.scene g) s.lighting.taken).requesting (s.scene g) := by
    unfold State.groupsDo
    rw [List.foldl_cons, List.foldl_nil]
    unfold Handed.group
    dsimp only
    rw [State.putGroup_state, setGroup_row, if_pos rfl]
    rfl
  obtain ⟨-, desired⟩ := exchanged.desired g
  obtain ⟨-, -, -, -, -, -, formed⟩ := (s.lighting.groups.get g).recompute_spec (s.scene g) s.lighting.taken
  rw [written, desired, group]
  exact formed

/-! ### The settlement -/

theorem State.reaching_limit_iff (s : State) (d : Fin 32) : s.reaching d = true ↔ (s.channel d).state = .opened
    ∧ (s.paramsOf s.phase).longOpen ≠ 0 ∧ 60 * (s.paramsOf s.phase).longOpen ≤ (s.channel d).interval :=
  (s.reaching_iff d).trans (and_congr_right fun _ => s.reachesLimit_iff _)

/-- Settles O24. -/
theorem tableChangeEvents : Obligations.TableChangeEvents := by
  refine ⟨phaseCapsTaken_spec, fun s p f => State.fieldsChanged_nothing, fun s p g other => if_neg other,
    fun s t f limit written hl ht => ?_, fun s t u v f written ht hu hv => ?_, State.sceneWritten_desired⟩
  · obtain ⟨channels, held, below⟩ := s.fieldsChanged_limit written
    rw [← ht] at channels held below
    subst hl
    refine ⟨fun d => ?_, fun ⟨d, reached⟩ => held ⟨d, (s.reaching_limit_iff d).mpr reached⟩, fun short => below fun d => ?_⟩
    · rw [channels d]
      unfold Channel.compared
      simp only [State.reachesLimit_iff]
    · refine Bool.eq_false_iff.mpr fun reached => ?_
      obtain ⟨opened, limit, reached⟩ := (s.reaching_limit_iff d).mp reached
      exact (short d opened).elim limit (Nat.not_lt.mpr reached)
  · rw [ht]
    exact s.fieldsChanged_cap u v written hu hv

end Sys2Proof.Machine
end

section
/-! SUPPORT. ZONE_CONFIG: its refusals, the configuration it stores, and the limits event and the cycle that follow its answer (R25,
R82, R89). -/

namespace Sys2Proof.Machine

variable {s : State} {a : ZoneConfigArgs} {z : Fin 8} {m : StartMode}

/-! ### The refusals (R82) -/

theorem configOutOfRange_iff (a : ZoneConfigArgs) : configOutOfRange a = true ↔
    4 < a.heaterStages.toNat ∨ 3 < a.fanStages.toNat ∨ a.setpointHigh.toNat < a.setpointLow.toNat
      ∨ a.bandHigh.toNat < a.bandLow.toNat := by
  simp only [configOutOfRange, Bool.or_eq_true, decide_eq_true_eq, or_assoc]

theorem State.not_zoneInUse_iff (s : State) (z : Fin 8) (heaters fans : Nat) : ¬ s.zoneInUse z heaters fans = true ↔
    (s.zoneMode z = .off ∨ s.zoneMode z = .manual)
      ∧ (s.budget.zones.get z).heat ≤ heaters ∧ (s.budget.demandOf z).heat ≤ heaters
      ∧ (s.budget.zones.get z).fans ≤ fans ∧ (s.budget.demandOf z).fans ≤ fans
      ∧ (s.budget.demandOf z).gasFloor ≤ fans := by
  simp only [State.zoneInUse, Bool.or_eq_true, Bool.not_eq_true', Bool.or_eq_false_iff, decide_eq_true_eq, beq_eq_false_iff_ne,
    not_or, not_lt, and_assoc]
  tauto

/-! ### The configuration stored (R82) -/

theorem configMoved_eq (a : ZoneConfigArgs) (c : ZoneConfig) : okOrClamped (configMoved a c)
    = if c.step = a.step.toNat ∧ c.hysteresis = a.hysteresis.toNat ∧ c.makeUp = a.makeUp.toNat
        ∧ c.boost = a.boost.toNat ∧ c.bandLow = a.bandLow.toNat ∧ c.bandHigh = a.bandHigh.toNat
        ∧ c.trailersPerStage = a.trailersPerStage.toNat then .ok else .clamped := by
  have moved : configMoved a c = true ↔ ¬ (c.step = a.step.toNat ∧ c.hysteresis = a.hysteresis.toNat
      ∧ c.makeUp = a.makeUp.toNat ∧ c.boost = a.boost.toNat ∧ c.bandLow = a.bandLow.toNat
      ∧ c.bandHigh = a.bandHigh.toNat ∧ c.trailersPerStage = a.trailersPerStage.toNat) := by
    simp only [configMoved, Bool.or_eq_true, bne_iff_ne, not_and_or, or_assoc]
  unfold okOrClamped
  simp only [moved, ite_not]

/-- A zone's record with a configuration stored: the manual counts clamped into the installed counts (R82). -/
def Zone.configured (x : Zone) (c : ZoneConfig) : Zone :=
  { x with config := c, manualHeat := min x.manualHeat c.heaterStages, manualFans := min x.manualFans c.fanStages }

/-- What follows the answer: the setpoints clamped where the limits changed, then a cycle (R25, R89). -/
def State.afterZoneConfig (s : State) (z : Fin 8) (x c : ZoneConfig) : State :=
  if x.setpointLow = c.setpointLow ∧ x.setpointHigh = c.setpointHigh then s.cycle else (s.clampSetpoints z).cycle

theorem State.afterZoneConfig_eq (s : State) (z : Fin 8) (x c : ZoneConfig) :
    (if (x.setpointLow != c.setpointLow || x.setpointHigh != c.setpointHigh) = true then s.clampSetpoints z else s).cycle
      = s.afterZoneConfig z x c := by
  have changed : (x.setpointLow != c.setpointLow || x.setpointHigh != c.setpointHigh) = true
      ↔ ¬ (x.setpointLow = c.setpointLow ∧ x.setpointHigh = c.setpointHigh) := by
    simp only [Bool.or_eq_true, bne_iff_ne, not_and_or]
  unfold State.afterZoneConfig
  simp only [changed, ite_not, apply_ite State.cycle]

/-! ### ZONE_CONFIG in its block -/

theorem ownZoneConfig_range (h : 7 < a.zone.toNat ∨ a.startMode = none ∨ configOutOfRange a = true) :
    ownZoneConfig a s = .turnedAway s .range := by
  unfold ownZoneConfig
  split
  · rename_i z m hz hm
    rcases h with h | h | h
    · cases (row_outside (n := 8) h).symm.trans hz
    · cases h.symm.trans hm
    · rw [if_pos h]
  · rfl

theorem ownZoneConfig_active (hz : a.zone.toNat = z.val) (hm : a.startMode = some m)
    (range : ¬ configOutOfRange a = true) (active : s.zoneInUse z a.heaterStages.toNat a.fanStages.toNat = true) :
    ownZoneConfig a s = .turnedAway s .active := by
  unfold ownZoneConfig
  simp only [row_of_val hz, hm]
  rw [if_neg range, if_pos active]

theorem ownZoneConfig_stores (hz : a.zone.toNat = z.val) (hm : a.startMode = some m)
    (range : ¬ configOutOfRange a = true) (free : ¬ s.zoneInUse z a.heaterStages.toNat a.fanStages.toNat = true) :
    ownZoneConfig a s =
      { state := s.setZone z ((s.climate.zones.get z).configured (storedConfig a m))
        reply := ⟨okOrClamped (configMoved a (storedConfig a m)), .zoneConfig (storedConfig a m)⟩
        after := fun t => t.afterZoneConfig z (s.climate.zones.get z).config (storedConfig a m) } := by
  unfold ownZoneConfig
  simp only [row_of_val hz, hm]
  rw [if_neg range, if_neg free]
  simp only [State.afterZoneConfig_eq]
  rfl

/-! ### The limits event (R25) -/

theorem State.clampSetpoints_get (s : State) (z y : Fin 8) (p : Phase) :
    ((s.clampSetpoints z).paramsOf p).setpoints.get y
      = if y = z then (s.climate.zones.get z).config.clampSetpoint ((s.paramsOf p).setpoints.get z)
        else (s.paramsOf p).setpoints.get y := by
  have record : (s.clampSetpoints z).paramsOf p = { s.paramsOf p with
      setpoints := (s.paramsOf p).setpoints.modify z (s.climate.zones.get z).config.clampSetpoint } :=
    Table.get_map _ _ _
  rw [record, Table.get_modify]
  by_cases same : z = y
  · rw [if_pos same, if_pos same.symm, same]
  · rw [if_neg same, if_neg (Ne.symm same)]

/-- Settles O40: RANGE is judged before ACTIVE, and a call neither refuses stores its configuration. -/
theorem zoneConfigCall : Obligations.ZoneConfigCall := by
  refine ⟨fun s u o a z m x c st h hz hm heaters fans limits band hx hc hst hu => ?_, fun s o a h hr => ?_,
    State.clampSetpoints_get⟩
  · have range : ¬ configOutOfRange a = true := by
      rw [configOutOfRange_iff]
      omega
    have stored : c = storedConfig a m := hc
    rw [← configMoved_eq] at hst
    have use := s.not_zoneInUse_iff z a.heaterStages.toNat a.fanStages.toNat
    subst hx hst hu stored
    split
    · next free =>
      exact State.runCall_hands (f := fun t => t.afterZoneConfig z (s.climate.zones.get z).config (storedConfig a m)) h
        (s.setZone z ((s.climate.zones.get z).configured (storedConfig a m)))
        (ownZoneConfig_stores hz hm range (use.mpr free))
    · next busy =>
      exact State.runCall_turnedAway h (ownZoneConfig_active hz hm range (not_not.mp fun free => busy (use.mp free)))
  · refine State.runCall_turnedAway h (ownZoneConfig_range ?_)
    rw [configOutOfRange_iff]
    exact hr

end Sys2Proof.Machine
end

section
/-! SUPPORT. DOOR_CONFIG and DOOR_READ (R41, R64, R65), ARRIVAL_FORECAST and WINDOW_END (R56, R57), and the calls of the door event
queue (R59, R61 to R63). -/

namespace Sys2Proof.Machine

variable {s t u : State} {o : Origin}

/-! ### Numbers that name a row or none -/

theorem rowOrNone_of_val {n : Nat} {b : Option Byte} {i : Option (Fin n)} (h : b.map BitVec.toNat = i.map Fin.val) :
    rowOrNone n b = some i := by
  cases b with
  | none => cases i with
    | none => rfl
    | some i => cases h
  | some b => cases i with
    | none => cases h
    | some i => exact congrArg (Option.map some) (row_of_val (Option.some.inj h))

theorem rowOrNone_outside {n : Nat} {b : Byte} (h : n ≤ b.toNat) : rowOrNone n (some b) = none :=
  congrArg (Option.map some) (row_outside h)

/-! ### DOOR_CONFIG and DOOR_READ (R41, R64, R65) -/

/-- The configuration DOOR_CONFIG stores (R64). -/
def storedDoorConfig (a : DoorConfigArgs) (zone : Option (Fin 8)) (curtain : Option (Fin 16)) : DoorConfig :=
  ⟨a.configured, zone, curtain, min 31 a.doorDebounce.toNat, a.trailerDebounce.toNat, a.capture⟩

/-- A channel with a configuration stored: initialised where it is configured, and where it is not, UNUSED with its interval
left as it was (R41, R64). -/
def Channel.reconfigured (x : Channel) (c : DoorConfig) : Channel :=
  { x with
    config := c, state := .unused, trailer := false, trailerSettled := false, doorPending := none, trailerPending := none
    interval := if c.configured then 0 else x.interval, lastEdge := if c.configured then none else x.lastEdge
    lastOpen := if c.configured then none else x.lastOpen, lastClosed := if c.configured then none else x.lastClosed }

/-- A door that DOOR_CONFIG may change: UNUSED, or of a zone that is OFF or none (R64). -/
def State.DoorFree (s : State) (x : Channel) : Prop :=
  x.state = .unused ∨ ∀ z, x.config.zone = some z → s.zoneMode z = .off

section
variable {a : DoorConfigArgs} {d : Fin 32} {zone : Option (Fin 8)} {curtain : Option (Fin 16)}

theorem ownDoorConfig_stores (hd : a.door.toNat = d.val) (hz : a.zone.map BitVec.toNat = zone.map Fin.val)
    (hc : a.curtain.map BitVec.toNat = curtain.map Fin.val) (free : s.DoorFree (s.channel d)) :
    ownDoorConfig a s =
      { state := (s.removeForecast d).setChannel d ((s.channel d).reconfigured (storedDoorConfig a zone curtain))
        reply := ⟨if a.doorDebounce.toNat ≤ 31 then .ok else .clamped, .doorConfig (storedDoorConfig a zone curtain)⟩
        after := fun t => (t.reevaluateOf (s.channel d).config.curtain).reevaluateOf curtain } := by
  have kept : okOrClamped (min 31 a.doorDebounce.toNat != a.doorDebounce.toNat)
      = if a.doorDebounce.toNat ≤ 31 then .ok else .clamped := by
    rw [okOrClamped_eq]
    simp only [min_eq_right_iff]
  have record : (if a.configured then { (s.channel d).initialise with config := storedDoorConfig a zone curtain }
      else { s.channel d with
        config := storedDoorConfig a zone curtain, state := .unused, trailer := false, trailerSettled := false
        doorPending := none, trailerPending := none })
      = (s.channel d).reconfigured (storedDoorConfig a zone curtain) := by
    unfold Channel.reconfigured Channel.initialise storedDoorConfig
    cases a.configured <;> rfl
  unfold ownDoorConfig
  simp only [row_of_val hd, rowOrNone_of_val hz, rowOrNone_of_val hc, kept]
  rw [← record]
  refine if_pos (free.imp_right fun off => ?_)
  split
  · rfl
  · next z hz => exact beq_iff_eq.mpr (off z hz)

theorem ownDoorConfig_active (hd : a.door.toNat = d.val) (hz : a.zone.map BitVec.toNat = zone.map Fin.val)
    (hc : a.curtain.map BitVec.toNat = curtain.map Fin.val) (busy : ¬ s.DoorFree (s.channel d)) :
    ownDoorConfig a s = .turnedAway s .active := by
  unfold ownDoorConfig
  simp only [row_of_val hd, rowOrNone_of_val hz, rowOrNone_of_val hc]
  refine if_neg fun free => busy (free.imp_right fun off z hz => ?_)
  rw [hz] at off
  exact beq_iff_eq.mp off

end

theorem ownDoorConfig_range {a : DoorConfigArgs} (h : 31 < a.door.toNat ∨ (∃ z, a.zone = some z ∧ 7 < z.toNat)
    ∨ ∃ c, a.curtain = some c ∧ 15 < c.toNat) : ownDoorConfig a s = .turnedAway s .range := by
  unfold ownDoorConfig
  split
  · rename_i d zone curtain hd hz hc
    rcases h with h | ⟨z, e, h⟩ | ⟨c, e, h⟩
    · cases (row_outside (n := 32) h).symm.trans hd
    · rw [e] at hz; cases (rowOrNone_outside (n := 8) h).symm.trans hz
    · rw [e] at hc; cases (rowOrNone_outside (n := 16) h).symm.trans hc
  · rfl

theorem doorConfigCall_spec : Claims.DoorConfigCall := by
  refine ⟨fun s o a d zone curtain x y c h hd hz hc hx hconfig hy => ?_, fun s o a h hr =>
    State.runCall_turnedAway h (ownDoorConfig_range hr)⟩
  have stored : c = storedDoorConfig a zone curtain := hconfig
  have record : y = (s.channel d).reconfigured (storedDoorConfig a zone curtain) := by rw [hy, hx, stored]; rfl
  clear hconfig hy
  subst stored record hx
  split
  · next free =>
    exact State.runCall_hands (f := fun t => (t.reevaluateOf (s.channel d).config.curtain).reevaluateOf curtain) h
      ((s.removeForecast d).setChannel d ((s.channel d).reconfigured (storedDoorConfig a zone curtain)))
      (ownDoorConfig_stores hd hz hc free)
  · next active => exact State.runCall_turnedAway h (ownDoorConfig_active hd hz hc active)

theorem doorRead_spec : Claims.DoorRead := by
  refine fun s o a h => ⟨fun d hd => State.runCall_answers h s ?_, fun hr => State.runCall_turnedAway h ?_⟩
  · unfold ownDoorRead
    rw [row_of_val hd]
    rfl
  · unfold ownDoorRead
    rw [row_outside hr]

/-- Settles O25. -/
theorem doorConfigAndRead : Obligations.DoorConfigAndRead := ⟨doorConfigCall_spec, doorRead_spec⟩

/-! ### ARRIVAL_FORECAST and WINDOW_END (R56, R57) -/

theorem forecastPhase_iff (p : Phase) : forecastPhase p = true ↔ p = .preheat ∨ p = .work ∨ p = .changeover := by
  cases p <;> decide

theorem State.forecastUsable_iff (s : State) (d : Fin 32) : s.forecastUsable d = true ↔
    (s.channel d).config.configured = true
      ∧ (∃ z, (s.channel d).config.zone = some z ∧ s.zoneMode z = .auto ∧ (s.climate.zones.get z).config.boost ≠ 0)
      ∧ (s.phase = .preheat ∨ s.phase = .work ∨ s.phase = .changeover)
      ∧ ((∃ f ∈ s.doors.forecasts, f.door = d) ∨ s.doors.forecasts.length < 8) := by
  have held : (s.forecastOf d).isSome = true ↔ ∃ f ∈ s.doors.forecasts, f.door = d := by
    simp [State.forecastOf, List.find?_isSome]
  unfold State.forecastUsable; dsimp only
  rw [Bool.and_eq_true, Bool.and_eq_true, Bool.and_eq_true, Bool.or_eq_true, forecastPhase_iff, held, decide_eq_true_eq]
  simp only [and_assoc, Config.forecastEntries]
  refine and_congr_right fun _ => and_congr_left fun _ => ?_
  cases (s.channel d).config.zone <;> simp

/-- A forecast taken for a door: its entry replaced (R56). -/
def State.takeForecast (s : State) (d : Fin 32) (minutes : Nat) : State :=
  { s with doors := { s.doors with
      forecasts := (s.doors.forecasts.filter fun f => f.door ≠ d) ++ [⟨d, 60 * minutes⟩] } }

theorem ownArrivalForecast_eq {a : ArrivalForecastArgs} {d : Fin 32} {m : Nat} (hd : a.door.toNat = d.val)
    (hm : m = max 1 (min 30 a.within.toNat)) : ownArrivalForecast a s = if s.forecastUsable d then
        { state := s.takeForecast d m
          reply := ⟨if m = a.within.toNat then .ok else .clamped, .windowEnd ((s.clock.weekSecond + 60 * m) % 604800)⟩ }
      else .turnedAway s .dropped := by
  have within : clampNat 1 30 a.within.toNat = m := hm.symm
  unfold ownArrivalForecast
  simp only [row_of_val hd, within, okOrClamped_eq]
  rfl

/-- A door's last second of its window: its entry is removed, and no other entry counts down (R57). -/
theorem State.forecastSecond_ends (b : s.Bounded) {f : Forecast} (hf : f ∈ s.doors.forecasts) (ends : f.seconds ≤ 1) :
    s.forecastSecond f.door = s.removeForecast f.door := by
  unfold State.forecastSecond State.removeForecast
  refine congrArg (fun l => { s with doors := { s.doors with forecasts := l } }) ?_
  rw [← List.filterMap_eq_filter]
  refine List.filterMap_congr fun e he => ?_
  by_cases own : e.door = f.door
  · have same : e = f := Option.some_injective _ (by
      rw [← State.forecastOf_eq b he, ← State.forecastOf_eq b hf, own])
    simp [same, ends, Option.guard]
  · simp [own, Option.guard]

/-- Settles O28. -/
theorem forecastsTakenAndEnded : Obligations.ForecastsTakenAndEnded := by
  refine ⟨fun s o a d m h hd hm => ?_, fun s o a h hr => State.runCall_turnedAway h ?_,
    fun s d f b running owed hf hd ends => ?_⟩
  · have own := ownArrivalForecast_eq (s := s.setReceiver o.link .hunting) hd hm
    have usable := s.forecastUsable_iff d
    split
    · next all => exact State.runCall_answers h (s.takeForecast d m) (own.trans (if_pos (usable.mpr all)))
    · next lacks => exact State.runCall_turnedAway h (own.trans (if_neg fun all => lacks (usable.mp all)))
  · unfold ownArrivalForecast
    rw [row_outside hr]
  · subst hd
    have ending : s.windowEnding f.door = true := by
      unfold State.windowEnding
      rw [State.forecastOf_eq b hf]
      simpa using ends
    refine (State.run_running running _).trans ?_
    rw [ending, State.takeNamed_due owed]
    refine congrArg Host.Outcome.next ((State.forecastSecond_ends (s := { s with owed := s.owed.erase (.forecast f.door) })
      ?_ hf ends).trans rfl)
    exact b.of_eq ⟨b.second, b.tick⟩ (fun _ => rfl) rfl rfl

/-! ### The calls of the door event queue (R59, R61 to R63) -/

theorem State.threshold_eq (s : State) :
    s.threshold = if s.phase = .work ∨ s.phase = .changeover then s.doors.busy else s.doors.quiet := by
  unfold State.threshold
  simp only [busyClass_iff]

/-- A threshold as DOORQ_THRESHOLDS leaves it, and whether it was moved (R59). -/
theorem threshold_written (v : Option Byte) (old new : Nat)
    (h : new = match v with | some v => max 1 (min 64 v.toNat) | none => old) :
    (v.map fun v => clampNat 1 64 v.toNat).getD old = new
    ∧ ((v.any fun v => v.toNat != new) = true ↔ ∃ w, v = some w ∧ w.toNat ≠ new) := by
  cases v with
  | none => simp [h]
  | some v => exact ⟨h.symm, by simp⟩

/-- Settles O29. -/
theorem doorQueueCalls : Obligations.DoorQueueCalls := by
  refine ⟨fun s u o a busy quiet st h hb hq hst hu => ?_, fun s u o a h hu => ?_, fun s o a n h hn => ?_, fun s o h => ?_⟩
  · obtain ⟨busy_eq, busy_moved⟩ := threshold_written a.busy _ _ hb
    obtain ⟨quiet_eq, quiet_moved⟩ := threshold_written a.quiet _ _ hq
    have status : okOrClamped (a.busy.any (fun v => v.toNat != busy) || a.quiet.any fun v => v.toNat != quiet) = st := by
      unfold okOrClamped
      rw [hst]
      simp only [Bool.or_eq_true, busy_moved, quiet_moved]
    have own : ownDoorqThresholds a (s.setReceiver o.link .hunting)
        = { state := if u.threshold < s.threshold then u.batchCheck else u, reply := ⟨st, .thresholds busy quiet⟩ } := by
      unfold ownDoorqThresholds
      simp only [setReceiver_doors, busy_eq, quiet_eq, status]
      rw [hu]
      rfl
    have lowered : u.threshold = if s.phase = .work ∨ s.phase = .changeover then busy else quiet := by
      rw [State.threshold_eq, hu]; rfl
    rw [lowered, State.threshold_eq s] at own
    refine (State.runCall_taken h a _).trans ?_
    rw [own]
    rfl
  · have own : ownDoorqNotices a (s.setReceiver o.link .hunting)
        = { state := if a.on = true ∧ s.doors.notices = false then u.batchCheck else u, reply := ⟨.ok, .bare⟩ } := by
      rw [hu]; rfl
    refine (State.runCall_taken h a _).trans ?_
    rw [own]
    rfl
  · have joins : (s.setReceiver o.link .hunting).answerJoins o.link
        = decide ((s.links.link o.link).queue.length < 8) := by
      unfold State.answerJoins State.setReceiver
      rw [LinkInterface.link_setLink_same]
      rfl
    refine State.runCall_answers h { s with doors := { s.doors with
      queue := if (s.links.link o.link).queue.length < 8 then s.doors.queue.drop n else s.doors.queue } } ?_
    have count : min Config.batchRecords a.count.toNat = n := hn.symm
    unfold ownDoorqRead
    simp only [joins, count, decide_eq_true_eq, List.length_drop, setReceiver_doors]
    split <;> rfl
  · exact State.runCall_answers h { s with doors := { s.doors with queue := [] } } rfl

end Sys2Proof.Machine
end

section
/-! SUPPORT. The curtains: when one is wanted, its re-evaluation cell by cell, what the allocator makes of what it hands,
RUN_ON_END, and CURTAIN_CONFIG (R52 to R55, R122, R123, R153). -/

namespace Sys2Proof.Machine

variable {s t u : State} {o : Origin} {c : Fin 16}

/-! ### When a curtain is wanted (R52) -/

theorem State.curtainWanted_iff (s : State) (c : Fin 16) : s.curtainWanted c = true ↔
    (s.doors.curtains.get c).config.configured = true ∧ s.zoneMode (s.doors.curtains.get c).config.zone ≠ .off
      ∧ ∃ d, (s.channel d).config.configured = true ∧ (s.channel d).config.curtain = some c
        ∧ ((s.channel d).state = .opened ∨ (s.channel d).state = .held) := by
  unfold State.curtainWanted; dsimp only
  simp [List.any_eq_true, indices, Channel.isOpen_eq, and_assoc]

/-- Whether a curtain is wanted is a matter of the doors' channels, the zones' modes and the curtain's own configuration. -/
theorem State.curtainWanted_congr (channels : t.doors.channels = s.doors.channels) (mode : t.zoneMode = s.zoneMode)
    (config : (t.doors.curtains.get c).config = (s.doors.curtains.get c).config) : t.curtainWanted c = s.curtainWanted c := by
  unfold State.curtainWanted State.channel; dsimp only
  rw [channels, mode, config]

/-! ### The cells of the table (R52) -/

@[simp] theorem State.setCurtain_self (s : State) (c : Fin 16) : s.setCurtain c (s.doors.curtains.get c) = s := by
  unfold State.setCurtain
  rw [Table.set_get]

/-- A curtain's re-evaluation by what its record comes to and what it hands. -/
theorem State.reevaluate_of {x : Curtain} {h : CurtainHand} (e : s.evaluated c = (x, h)) :
    s.reevaluate c = (s.setCurtain c x).handCurtain c h := by
  unfold State.reevaluate
  rw [e]

theorem State.reevaluate_stands (e : s.evaluated c = (s.doors.curtains.get c, .nothing)) : s.reevaluate c = s :=
  (State.reevaluate_of e).trans (s.setCurtain_self c)

theorem curtainsReevaluate_spec : Claims.CurtainsReevaluate := by
  intro s c x hx
  subst hx
  have cell : s.evaluated c = (s.doors.curtains.get c).evaluate (s.curtainWanted c)
      (s.zoneMode (s.doors.curtains.get c).config.zone == .off) := rfl
  unfold Curtain.evaluate at cell
  refine ⟨fun wanted => ?_, fun unwanted off => ?_, fun unwanted on => ?_⟩
  · rw [wanted] at cell
    refine ⟨fun st => ?_, fun st => ?_, fun st => ?_⟩ <;> rw [st] at cell
    · exact State.reevaluate_of cell
    · exact State.reevaluate_stands cell
    · exact State.reevaluate_of cell
  · rw [unwanted, off] at cell
    refine ⟨fun st => ?_, fun st => ?_⟩
    · rw [st] at cell
      exact State.reevaluate_stands cell
    · cases kind : (s.doors.curtains.get c).state with
      | idle => exact absurd kind st
      | demanded => rw [kind] at cell; exact State.reevaluate_of cell
      | runOn => rw [kind] at cell; exact State.reevaluate_of cell
  · rw [unwanted, beq_eq_false_iff_ne.mpr on] at cell
    refine ⟨fun st => ?_, fun st => ?_, fun st runOn => ?_, fun st runOn => ?_⟩ <;> rw [st] at cell
    · exact State.reevaluate_stands cell
    · exact State.reevaluate_stands cell
    · exact State.reevaluate_of (cell.trans (if_neg (by simpa using runOn)))
    · exact State.reevaluate_of (cell.trans (if_pos (by simpa using runOn)))

/-! ### What the allocator makes of it (R122, R123, R153) -/

/-- A curtain that the allocator grants when it tries it: not IDLE, not granted, its rating at most the headroom (R122). -/
def State.CurtainFits (s : State) (c : Fin 16) : Prop :=
  (s.doors.curtains.get c).state ≠ .idle ∧ (s.doors.curtains.get c).granted = false
    ∧ (s.budget.ratings.curtains.get c : Int) ≤ s.budget.headroom

theorem State.tryCurtain_fits (h : s.CurtainFits c) : s.tryCurtain c
    = (s.setCurtain c { s.doors.curtains.get c with granted := true }).setTotal
        (s.budget.total + s.budget.ratings.curtains.get c) := if_pos h

theorem State.tryCurtain_waits (h : ¬ s.CurtainFits c) : s.tryCurtain c = s := if_neg h

theorem curtainHandsAreTaken_spec : Claims.CurtainHandsAreTaken := by
  refine ⟨fun s u c x rating hx hr active hu => ?_, fun s => ⟨rfl, fun l x latch hx hl => ?_⟩,
    fun s c x hx => ⟨fun waits => ?_, fun granted => ?_⟩, fun s t c x hx ht => ?_⟩
  · subst hx hr
    rw [hu]
    refine congrArg State.followGrants ?_
    unfold State.tryCurtain; dsimp only
    refine if_congr (and_iff_right active) rfl rfl
  · rw [State.followGrants_line, ← hx, hl]
    unfold Line.following
    cases x.config.mode <;> cases s.functionOn x.config.binding <;> rfl
  · subst hx
    exact if_neg (by rw [waits]; decide)
  · subst hx
    exact if_pos granted
  · subst hx
    rw [ht, State.curtainRelease_idle _ _ (by simp [State.setCurtain])]
    simp [State.setCurtain]

/-! ### RUN_ON_END (R53) -/

theorem runOnEnds_spec : Claims.RunOnEnds := by
  intro s c x running hx
  subst hx
  refine ⟨fun n owed st left last => ?_, fun idle => ?_⟩
  · have ending : s.runOnEnding c = true := by
      unfold State.runOnEnding
      simp [st, left, last]
    refine (State.run_running running _).trans ?_
    rw [ending, State.takeNamed_due owed]
    refine congrArg Host.Outcome.next ?_
    show State.curtainSecond { s with owed := s.owed.erase (.curtain c) } c = _
    unfold State.curtainSecond; dsimp only
    rw [st, left]
    exact if_pos last
  · refine (State.run_running running _).trans (congrArg Host.Outcome.next (if_neg ?_))
    rw [Bool.and_eq_true, List.contains_iff_mem]
    rintro ⟨owed, ending⟩
    unfold State.runOnEnding at ending
    rcases idle with h | h | h | ⟨n, h, more⟩
    · exact h owed
    · simp [h] at ending
    · simp [h] at ending
    · simp [h] at ending
      omega

/-- Settles O27. -/
theorem curtainsFollowTheirDoors : Obligations.CurtainsFollowTheirDoors :=
  ⟨State.curtainWanted_iff, curtainsReevaluate_spec, curtainHandsAreTaken_spec, runOnEnds_spec⟩

/-! ### CURTAIN_CONFIG (R55) -/

/-- The curtain whose demand the allocator takes is granted where its rating is at most the headroom, and keeps a grant it has
(R122). -/
theorem State.curtainDemand_row (active : (s.doors.curtains.get c).state ≠ .idle) :
    (s.curtainDemand c).doors.curtains.get c = { s.doors.curtains.get c with
      granted := (s.doors.curtains.get c).granted || decide ((s.budget.ratings.curtains.get c : Int) ≤ s.budget.headroom) } := by
  show (s.tryCurtain c).doors.curtains.get c = _
  by_cases granted : (s.doors.curtains.get c).granted = true
  · rw [State.tryCurtain_waits fun fits => Bool.false_ne_true (fits.2.1.symm.trans granted), granted, Bool.true_or, ← granted]
  · rw [Bool.not_eq_true] at granted
    by_cases fits : (s.budget.ratings.curtains.get c : Int) ≤ s.budget.headroom
    · rw [State.tryCurtain_fits ⟨active, granted, fits⟩]
      simp [State.setTotal, State.setCurtain, fits]
    · rw [State.tryCurtain_waits fun all => fits all.2.2, granted, decide_eq_false fits, Bool.or_false, ← granted]

theorem State.curtainDemand_setReceiver (s : State) (c : Fin 16) (l : Link) (r : Receiver) :
    (s.setReceiver l r).curtainDemand c = (s.curtainDemand c).setReceiver l r := by
  have tried : (s.setReceiver l r).tryCurtain c = (s.tryCurtain c).setReceiver l r := by
    by_cases fits : s.CurtainFits c
    · rw [State.tryCurtain_fits fits, State.tryCurtain_fits (s := s.setReceiver l r) fits]
      rfl
    · rw [State.tryCurtain_waits fits, State.tryCurtain_waits (s := s.setReceiver l r) fits]
  unfold State.curtainDemand
  rw [tried]
  rfl

/-- An IDLE curtain re-evaluated, its demand taken at once where it is wanted (R52, R122). -/
theorem State.reevaluate_idle (idle : (s.doors.curtains.get c).state = .idle) : s.reevaluate c =
    if s.curtainWanted c = true then (s.setCurtain c { s.doors.curtains.get c with state := .demanded }).curtainDemand c
    else s := by
  obtain ⟨wanted_cells, off_cells, on_cells⟩ := curtainsReevaluate_spec s c _ rfl
  split
  · next wanted => exact (wanted_cells wanted).1 idle
  · next unwanted =>
    rw [Bool.not_eq_true] at unwanted
    by_cases off : s.zoneMode (s.doors.curtains.get c).config.zone = .off
    · exact (off_cells unwanted off).1 idle
    · exact (on_cells unwanted off).1 idle

theorem State.reevaluate_idle_setReceiver (idle : (s.doors.curtains.get c).state = .idle) (l : Link) (r : Receiver) :
    (s.setReceiver l r).reevaluate c = (s.reevaluate c).setReceiver l r := by
  have want : (s.setReceiver l r).curtainWanted c = s.curtainWanted c := rfl
  rw [State.reevaluate_idle idle, State.reevaluate_idle (s := s.setReceiver l r) idle, want]
  split
  · exact State.curtainDemand_setReceiver (s.setCurtain c _) c l r
  · rfl

/-- A curtain's record with the fields CURTAIN_CONFIG carries written (R55). -/
def Curtain.reconfigured (x : Curtain) (a : CurtainConfigArgs) (zone : Option (Fin 8)) : Curtain :=
  { x with config := ⟨a.configured.getD x.config.configured, zone.getD x.config.zone,
      (a.runOn.map fun v => min 120 v.toNat).getD x.config.runOn⟩ }

/-- The status of a CURTAIN_CONFIG that is taken: CLAMPED where the run-on asked is above 120 (R55). -/
def curtainStatus (a : CurtainConfigArgs) : Status := okOrClamped (a.runOn.any fun v => 120 < v.toNat)

section
variable {a : CurtainConfigArgs} {zone : Option (Fin 8)} (hc : a.curtain.toNat = c.val)
  (hz : a.zone.map BitVec.toNat = zone.map Fin.val)
include hc hz

theorem ownCurtainConfig_eq : ownCurtainConfig a s =
    if a.configured.isNone ∧ zone.isNone ∧ a.runOn.isNone then .report s (.curtain (s.doors.curtains.get c))
    else if (s.doors.curtains.get c).state ≠ .idle then .turnedAway s .active
    else
      let t := (s.setCurtain c ((s.doors.curtains.get c).reconfigured a zone)).reevaluate c
      { state := t, reply := ⟨curtainStatus a, .curtain (t.doors.curtains.get c)⟩ } := by
  unfold ownCurtainConfig
  rw [row_of_val hc, rowOrNone_of_val hz]
  rfl

end

theorem ownCurtainConfig_range {a : CurtainConfigArgs} (h : 15 < a.curtain.toNat ∨ ∃ z, a.zone = some z ∧ 7 < z.toNat) :
    ownCurtainConfig a s = .turnedAway s .range := by
  unfold ownCurtainConfig
  split
  · rename_i c zone hc hz
    rcases h with h | ⟨z, e, h⟩
    · cases (row_outside (n := 16) h).symm.trans hc
    · rw [e] at hz; cases (rowOrNone_outside (n := 8) h).symm.trans hz
  · rfl

/-- Settles O26. -/
theorem curtainConfigCall : Obligations.CurtainConfigCall := by
  refine ⟨fun s u o a c zone x y st h hc hz hx hy hst hu => ?_, fun s o a h hr =>
    State.runCall_turnedAway h (ownCurtainConfig_range hr)⟩
  have record : y = x.reconfigured a zone := by
    rw [hy]
    unfold Curtain.reconfigured
    cases a.runOn <;> rfl
  have status : st = curtainStatus a := by
    rw [hst]
    unfold curtainStatus okOrClamped
    cases a.runOn <;> simp
  have absent : a.zone = none ↔ zone.isNone = true := by
    cases hza : a.zone <;> cases zone <;> simp_all
  clear hy hst
  subst hx record status hu
  have own := ownCurtainConfig_eq (s := s.setReceiver o.link .hunting) hc hz
  split
  · next read =>
    refine State.runCall_answers h s (own.trans (if_pos ?_))
    simpa [absent] using read
  next written =>
  replace own := own.trans (if_neg (by simpa [absent] using written))
  split
  · next active => exact State.runCall_turnedAway h (own.trans (if_pos active))
  next idle =>
  rw [not_not] at idle
  replace own := own.trans (if_neg (not_not.mpr idle))
  generalize hy : (s.doors.curtains.get c).reconfigured a zone = y
  have row : (s.setCurtain c y).doors.curtains.get c = y := Table.get_set_same _ _ _
  have still : ((s.setCurtain c y).doors.curtains.get c).state = .idle := by rw [row, ← hy]; exact idle
  have taken : ((s.setReceiver o.link .hunting).setCurtain c y).reevaluate c
      = ((s.setCurtain c y).reevaluate c).setReceiver o.link .hunting := State.reevaluate_idle_setReceiver still _ _
  simp only [setReceiver_doors, hy, taken] at own
  have answers := State.runCall_answers h ((s.setCurtain c y).reevaluate c) own
  rw [State.reevaluate_idle still, row] at answers
  refine answers.trans (congrArg Host.Outcome.next ?_)
  split
  · have granted := State.curtainDemand_row (s := s.setCurtain c { y with state := .demanded }) (c := c) (by simp)
    simp only [State.setCurtain, Table.set_set, Table.get_set_same] at granted ⊢
    rw [granted]
    rfl
  · rw [row]

end Sys2Proof.Machine
end

section
/-! SUPPORT. The batch check: a run of records in its parts, and the runs that leave while there are records and room (R58 to R60, R163,
R168, R170). -/

namespace Sys2Proof.Machine

/-! ### A run in its parts (R60, R168) -/

theorem batchParts_get (n i : Nat) (rs : List DoorRecord) (h : rs.length ≤ n) :
    (batchParts n rs)[i]? = if 24 * i < rs.length then some ((rs.drop (24 * i)).take 24) else none := by
  induction n generalizing rs i with
  | zero => simp [batchParts, List.length_eq_zero_iff.mp (Nat.le_zero.mp h)]
  | succ n ih =>
    unfold batchParts
    cases rs with
    | nil => simp
    | cons r rs =>
      rw [if_neg (by simp)]
      cases i with
      | zero => simp [Config.batchRecords]
      | succ i =>
        have shorter : ((r :: rs).drop Config.batchRecords).length ≤ n := by
          simp [Config.batchRecords] at h ⊢
          omega
        have more : 24 * i < ((r :: rs).drop Config.batchRecords).length ↔ 24 * (i + 1) < (r :: rs).length := by
          simp only [List.length_drop, Config.batchRecords]
          omega
        rw [List.getElem?_cons_succ, ih i _ shorter, if_congr more rfl rfl, List.drop_drop,
          show Config.batchRecords + 24 * i = 24 * (i + 1) by unfold Config.batchRecords; omega]

theorem batchParts_length (n : Nat) (rs : List DoorRecord) (h : rs.length ≤ n) :
    (batchParts n rs).length = (rs.length + 23) / 24 := by
  have present (i : Nat) : i < (batchParts n rs).length ↔ 24 * i < rs.length := by
    rw [← not_iff_not, Nat.not_lt, ← List.getElem?_eq_none_iff, batchParts_get n i rs h]
    split <;> simp [*]
  have last := present ((rs.length + 23) / 24)
  have before := present ((rs.length + 23) / 24 - 1)
  omega

theorem batchesAreCutInParts_spec : Claims.BatchesAreCutInParts := by
  intro rs i
  have parts := batchParts_length rs.length rs le_rfl
  have part := batchParts_get rs.length i rs le_rfl
  unfold batchRun; dsimp only
  rw [List.getElem?_map, List.zip, List.getElem?_zipWith, part, parts]
  by_cases more : 24 * i < rs.length
  · have counted : i < (rs.length + 23) / 24 := by omega
    simp [more, counted, noticeFrame, noticeKind]
  · simp [more]

theorem batchRun_length (rs : List DoorRecord) : (batchRun rs).length = (rs.length + 23) / 24 := by
  simp [batchRun, batchParts_length]

/-! ### The threshold in force (R59) -/

theorem thresholdInForce_spec : Claims.ThresholdInForce := by
  refine fun s => ⟨fun busy => ?_, fun quiet => ?_⟩
  · exact (s.threshold_eq).trans (if_pos busy)
  · refine (s.threshold_eq).trans (if_neg ?_)
    rcases quiet with h | h | h | h <;> rw [h] <;> decide

/-! ### Runs offered while there is room (R60, R163) -/

/-- Frames offered to a queue that has room for them all join its end, and a released link sends. -/
theorem LinkState.offerAll_room (fs : List Frame) (x : LinkState) (h : x.queue.length + fs.length ≤ 8) :
    x.offerAll fs = { x with queue := x.queue ++ fs, sending := x.sending || (!fs.isEmpty && !x.held) } := by
  induction fs generalizing x with
  | nil => simp [LinkState.offerAll]
  | cons f fs ih =>
    rw [List.length_cons] at h
    have joins : x.offer f = { x with queue := x.queue ++ [f], sending := x.sending || !x.held } :=
      if_pos (show x.queue.length < 8 by omega)
    have rest := ih (x.offer f) (by rw [joins]; simp; omega)
    refine rest.trans ?_
    rw [joins]
    cases x.held <;> simp

/-- The state once `j` batches of `n` records have left the front of the queue, each as its run of parts (R60). -/
def State.batchesSent (s : State) (n j : Nat) : State :=
  { s with
    doors := { s.doors with queue := s.doors.queue.drop (j * n) }
    links := { s.links with supervisor := { s.links.supervisor with
      queue := s.links.supervisor.queue ++ (List.range j).flatMap fun i => batchRun ((s.doors.queue.drop (i * n)).take n)
      sending := s.links.supervisor.sending || (decide (0 < j) && !s.links.supervisor.held) } } }

theorem State.batchesSent_zero (s : State) (n : Nat) : s.batchesSent n 0 = s := by
  simp [State.batchesSent]

theorem State.batchesSent_next (s : State) (n j : Nat) : (s.batchesSent n 1).batchesSent n j = s.batchesSent n (j + 1) := by
  have drops (i : Nat) : (s.doors.queue.drop n).drop (i * n) = s.doors.queue.drop ((i + 1) * n) := by
    rw [List.drop_drop]
    congr 1
    ring
  unfold State.batchesSent
  simp only [Nat.one_mul, List.flatMap_cons, Nat.zero_mul, List.drop_zero, drops, List.range_succ_eq_map, List.flatMap_map,
    List.append_assoc, Nat.succ_eq_add_one]
  cases s.links.supervisor.held <;> simp

/-- What the offering of batches leaves: some batches sent, within the bound of the queue, and then too few records or too little
room. -/
structure State.Batched (s t : State) (n j : Nat) : Prop where
  sent   : t = s.batchesSent n j
  whole  : j * n ≤ s.doors.queue.length
  frames : t.links.supervisor.queue.length = s.links.supervisor.queue.length + j * ((n + 23) / 24)
  bound  : t.links.supervisor.queue.length ≤ 8
  stops  : t.doors.queue.length < n ∨ 8 < t.links.supervisor.queue.length + (n + 23) / 24

theorem State.offerBatches_batched (fuel n : Nat) (s : State) (hn : 1 ≤ n) (hq : s.links.supervisor.queue.length ≤ 8)
    (hf : s.doors.queue.length ≤ fuel) : ∃ j, s.Batched (State.offerBatches fuel n s) n j := by
  induction fuel generalizing s with
  | zero => exact ⟨0, (s.batchesSent_zero n).symm, by omega, by simp [State.offerBatches], hq, .inl (by
      simp only [State.offerBatches]; omega)⟩
  | succ fuel ih =>
    have run (enough : n ≤ s.doors.queue.length) : (batchRun (s.doors.queue.take n)).length = (n + 23) / 24 := by
      rw [batchRun_length, List.length_take, min_eq_left enough]
    unfold State.offerBatches; dsimp only
    split
    · next h =>
      obtain ⟨-, enough, room⟩ := h
      have room' : s.links.supervisor.queue.length + (batchRun (s.doors.queue.take n)).length ≤ 8 := by
        unfold LinkState.room Config.queueFrames at room
        omega
      have first : ({ s with
          doors := { s.doors with queue := s.doors.queue.drop n }
          links := s.links.setLink .supervisor (s.links.supervisor.offerAll (batchRun (s.doors.queue.take n))) } : State)
          = s.batchesSent n 1 := by
        have some_part : (batchRun (s.doors.queue.take n)).isEmpty = false := by
          refine Bool.eq_false_iff.mpr fun none => ?_
          have parts := run enough
          rw [List.isEmpty_iff.mp none, List.length_nil] at parts
          omega
        rw [LinkState.offerAll_room _ _ room', some_part]
        simp [State.batchesSent, LinkInterface.setLink]
      rw [first]
      have length : (s.batchesSent n 1).links.supervisor.queue.length = s.links.supervisor.queue.length + (n + 23) / 24 := by
        simp [State.batchesSent, run enough]
      have left : (s.batchesSent n 1).doors.queue.length = s.doors.queue.length - n := by simp [State.batchesSent]
      rw [run enough] at room'
      obtain ⟨j, rest⟩ := ih (s.batchesSent n 1) (by omega) (by omega)
      refine ⟨j + 1, rest.sent.trans (s.batchesSent_next n j), ?_, ?_, rest.bound, rest.stops⟩
      · have := rest.whole
        rw [left] at this
        rw [Nat.succ_mul]
        omega
      · rw [rest.frames, length, Nat.succ_mul]
        omega
    · next stop =>
      refine ⟨0, (s.batchesSent_zero n).symm, by omega, by simp, hq, ?_⟩
      by_cases enough : n ≤ s.doors.queue.length
      · refine .inr (Nat.lt_of_not_le fun fits => stop ⟨hn, enough, ?_⟩)
        rw [run enough]
        unfold LinkState.room Config.queueFrames
        omega
      · exact .inl (Nat.lt_of_not_le enough)

/-- Settles O30. -/
theorem batchCheckEmptiesTheQueue : Obligations.BatchCheckEmptiesTheQueue := by
  refine ⟨batchesAreCutInParts_spec, thresholdInForce_spec, fun s still => ?_,
    fun s t x y n parts on free hx hq hn hn1 hp ht hy => ?_⟩
  · refine if_neg fun h => ?_
    rcases still with off | accepted
    · exact Bool.false_ne_true (off.symm.trans h.1)
    · exact accepted (Option.isNone_iff_eq_none.mp h.2)
  · have check : s.batchCheck = State.offerBatches s.doors.queue.length s.threshold s := if_pos ⟨on, by rw [free]; rfl⟩
    subst hx hp
    rw [← hn] at check
    obtain ⟨j, h⟩ := State.offerBatches_batched s.doors.queue.length n s hn1 hq le_rfl
    rw [← check, ← ht] at h
    subst hy
    have link : t.links.supervisor = (s.batchesSent n j).links.supervisor := by rw [h.sent]
    refine ⟨j, h.whole, ?_, link, h.frames, h.bound, h.stops⟩
    rw [link]
    exact h.sent

end Sys2Proof.Machine
end

section
/-! SUPPORT. What the services of the allocator for the curtains touch, what a re-evaluation makes of each curtain's own record, and
what a record offered leaves, beside whatever else has changed (R52, R54, R58, R60, R122, R123). -/

namespace Sys2Proof.Machine

variable {s t u : State} {c : Fin 16}

/-! ### Two records of a curtain alike but for the grant -/

/-- Two records of a curtain that differ in the grant alone. -/
def Curtain.Alike (x y : Curtain) : Prop := ∃ granted, y = { x with granted := granted }

theorem Curtain.Alike.of_fields {x y : Curtain} (h : y.config = x.config ∧ y.state = x.state ∧ y.remaining = x.remaining) :
    x.Alike y := by
  obtain ⟨config, state, remaining⟩ := h
  exact ⟨y.granted, by rw [← config, ← state, ← remaining]⟩

theorem Curtain.Alike.fields {x y : Curtain} (h : x.Alike y) :
    y.config = x.config ∧ y.state = x.state ∧ y.remaining = x.remaining := by
  obtain ⟨granted, rfl⟩ := h
  exact ⟨rfl, rfl, rfl⟩

theorem Curtain.Alike.refl (x : Curtain) : x.Alike x := ⟨x.granted, rfl⟩

theorem Curtain.Alike.trans {x y z : Curtain} (h : x.Alike y) (k : y.Alike z) : x.Alike z := by
  obtain ⟨_, rfl⟩ := h
  obtain ⟨granted, rfl⟩ := k
  exact ⟨granted, rfl⟩

theorem Curtain.Alike.symm {x y : Curtain} (h : x.Alike y) : y.Alike x := by
  obtain ⟨_, rfl⟩ := h
  exact ⟨x.granted, rfl⟩

/-- A re-evaluation does not look at the grant (R52). -/
theorem Curtain.Alike.evaluate {x y : Curtain} (h : x.Alike y) (wanted off : Bool) :
    (x.evaluate wanted off).1.Alike (y.evaluate wanted off).1 ∧ (y.evaluate wanted off).2 = (x.evaluate wanted off).2 := by
  obtain ⟨granted, rfl⟩ := h
  have same : Curtain.evaluate { x with granted := granted } wanted off
      = ({ (x.evaluate wanted off).1 with granted := granted }, (x.evaluate wanted off).2) := by
    unfold Curtain.evaluate; dsimp only
    split <;> (try split) <;> rfl
  rw [same]
  exact ⟨⟨granted, rfl⟩, rfl⟩

theorem State.GrantsOnly.alike (h : s.GrantsOnly t) (c : Fin 16) :
    (s.doors.curtains.get c).Alike (t.doors.curtains.get c) :=
  .of_fields ⟨h.curtains c, h.curtain c⟩

/-- The outcome of a re-evaluation is the same in two states with the same channels and modes and a record alike. -/
theorem State.evaluated_alike (channels : t.doors.channels = s.doors.channels) (mode : t.zoneMode = s.zoneMode)
    (alike : (s.doors.curtains.get c).Alike (t.doors.curtains.get c)) :
    (s.evaluated c).1.Alike (t.evaluated c).1 ∧ (t.evaluated c).2 = (s.evaluated c).2 := by
  unfold State.evaluated; dsimp only
  rw [State.curtainWanted_congr channels mode alike.fields.1, mode, alike.fields.1]
  exact alike.evaluate _ _

/-- A re-evaluation's rows: its own curtain as evaluated, the others as they were, but for the grants. -/
theorem State.reevaluate_row (s : State) (c b : Fin 16) :
    (if c = b then (s.evaluated c).1 else s.doors.curtains.get b).Alike ((s.reevaluate c).doors.curtains.get b) := by
  have handed := ((s.setCurtain c (s.evaluated c).1).grantsOnly_handCurtain c (s.evaluated c).2).alike b
  rw [setCurtain_row] at handed
  exact handed

/-- A wanted curtain is DEMANDED once it has re-evaluated (R52). -/
theorem State.reevaluate_wanted (wanted : s.curtainWanted c = true) :
    ((s.reevaluate c).doors.curtains.get c).state = .demanded := by
  obtain ⟨-, row, -⟩ := (s.reevaluate_row c c).fields
  rw [if_pos rfl] at row
  rw [row]
  unfold State.evaluated; dsimp only
  rw [wanted]
  unfold Curtain.evaluate
  cases kind : (s.doors.curtains.get c).state with
  | idle => rfl
  | demanded => exact kind
  | runOn => rfl

/-- A re-evaluation of one curtain, in states whose curtains are alike, leaves them alike. -/
theorem State.reevaluateOf_alike (channels : t.doors.channels = s.doors.channels) (mode : t.zoneMode = s.zoneMode)
    (alike : ∀ b, (s.doors.curtains.get b).Alike (t.doors.curtains.get b)) (c : Option (Fin 16)) (b : Fin 16) :
    ((s.reevaluateOf c).doors.curtains.get b).Alike ((t.reevaluateOf c).doors.curtains.get b) := by
  cases c with
  | none => exact alike b
  | some c =>
    refine ((s.reevaluate_row c b).symm.trans ?_).trans (t.reevaluate_row c b)
    split
    · exact (State.evaluated_alike channels mode (alike c)).1
    · exact alike b

/-! ### What the curtains' services touch (R54, R122, R123, R153) -/

/-- Two states that differ in the curtains, the total granted and the lines' latches alone. -/
def State.CurtainsOnly (s t : State) : Prop :=
  t = { s with
    doors := { s.doors with curtains := t.doors.curtains }
    budget := { s.budget with total := t.budget.total }
    lines := { s.lines with lines := t.lines.lines } }

theorem State.CurtainsOnly.refl (s : State) : s.CurtainsOnly s := Eq.refl s

theorem State.CurtainsOnly.trans (h : s.CurtainsOnly t) (k : t.CurtainsOnly u) : s.CurtainsOnly u := by
  unfold State.CurtainsOnly at *
  rw [h] at k
  exact k

theorem State.curtainsOnly_setCurtain (s : State) (c : Fin 16) (x : Curtain) : s.CurtainsOnly (s.setCurtain c x) := Eq.refl _

theorem State.curtainsOnly_setTotal (s : State) (n : Nat) : s.CurtainsOnly (s.setTotal n) := Eq.refl _

theorem State.curtainsOnly_tryCurtain (s : State) (c : Fin 16) : s.CurtainsOnly (s.tryCurtain c) := by
  unfold State.tryCurtain; dsimp only; split
  · exact (s.curtainsOnly_setCurtain c _).trans (State.curtainsOnly_setTotal _ _)
  · exact .refl s

theorem State.curtainsOnly_followGrants (s : State) : s.CurtainsOnly s.followGrants := Eq.refl _

theorem State.curtainsOnly_retryCurtains (s : State) : s.CurtainsOnly s.retryCurtains :=
  .trans (foldl_keeps State.CurtainsOnly .refl .trans _ (fun t i => t.curtainsOnly_tryCurtain i) _ s)
    (State.curtainsOnly_followGrants _)

theorem State.curtainsOnly_handCurtain (s : State) (c : Fin 16) (h : CurtainHand) : s.CurtainsOnly (s.handCurtain c h) := by
  cases h with
  | nothing => exact .refl s
  | demand => exact (s.curtainsOnly_tryCurtain c).trans (State.curtainsOnly_followGrants _)
  | release =>
    show s.CurtainsOnly (s.curtainRelease c)
    unfold State.curtainRelease; dsimp only; split
    · exact ((s.curtainsOnly_setCurtain c _).trans (State.curtainsOnly_setTotal _ _)).trans
        (State.curtainsOnly_retryCurtains _)
    · exact .refl s

theorem State.curtainsOnly_reevaluate (s : State) (c : Fin 16) : s.CurtainsOnly (s.reevaluate c) :=
  (s.curtainsOnly_setCurtain c _).trans (State.curtainsOnly_handCurtain _ c _)

theorem State.curtainsOnly_reevaluateOf (s : State) (c : Option (Fin 16)) : s.CurtainsOnly (s.reevaluateOf c) := by
  cases c with
  | none => exact .refl s
  | some c => exact s.curtainsOnly_reevaluate c

/-- A curtain's re-evaluation moves grants alone, from the curtains as it leaves them (R52, R122, R123). -/
theorem State.reevaluateOf_grants (s : State) (c : Option (Fin 16)) : State.GrantsOnly
    { s with doors := { s.doors with curtains := (s.reevaluateOf c).doors.curtains } } (s.reevaluateOf c) := by
  cases c with
  | none => exact .refl s
  | some c =>
    refine .trans (State.grantsOnly_curtains _ (s.setCurtain c (s.evaluated c).1).doors.curtains fun b => ?_)
      (State.grantsOnly_handCurtain (s.setCurtain c (s.evaluated c).1) c (s.evaluated c).2)
    have row := (s.reevaluate_row c b).symm
    rw [← setCurtain_row] at row
    exact row.fields

/-! ### A record offered beside other changes (R58, R60) -/

/-- Two states that offer records alike: the same phase in force, door event queue with its settings, and links. -/
structure State.OffersAlike (s t : State) : Prop where
  phase   : t.phase = s.phase
  queue   : t.doors.queue = s.doors.queue
  busy    : t.doors.busy = s.doors.busy
  quiet   : t.doors.quiet = s.doors.quiet
  notices : t.doors.notices = s.doors.notices
  links   : t.links = s.links

theorem State.OffersAlike.offerBatches (queue : t.doors.queue = s.doors.queue) (links : t.links = s.links) (fuel n : Nat) :
    (State.offerBatches fuel n t).doors.queue = (State.offerBatches fuel n s).doors.queue
    ∧ (State.offerBatches fuel n t).links = (State.offerBatches fuel n s).links := by
  induction fuel generalizing s t with
  | zero => exact ⟨queue, links⟩
  | succ fuel ih =>
    unfold State.offerBatches; dsimp only
    rw [queue, links]
    split
    · exact ih rfl rfl
    · exact ⟨queue, links⟩

theorem State.OffersAlike.batchCheck (h : s.OffersAlike t) :
    t.batchCheck.doors.queue = s.batchCheck.doors.queue ∧ t.batchCheck.links = s.batchCheck.links := by
  have threshold : t.threshold = s.threshold := by
    unfold State.threshold
    rw [h.phase, h.busy, h.quiet]
  unfold State.batchCheck
  rw [h.notices, h.links, threshold, h.queue]
  split
  · exact State.OffersAlike.offerBatches h.queue h.links _ _
  · exact ⟨h.queue, h.links⟩

/-- A record offered in one of two states that offer alike: the door event queue and the links move as they do in the other, and
nothing else does. -/
theorem State.OffersAlike.offerRecord (h : s.OffersAlike t) (r : DoorRecord) : t.offerRecord r = { t with
    doors := { t.doors with queue := (s.offerRecord r).doors.queue }, links := (s.offerRecord r).links } := by
  have moved : (t.offerRecord r).doors.queue = (s.offerRecord r).doors.queue
      ∧ (t.offerRecord r).links = (s.offerRecord r).links := by
    unfold State.offerRecord
    rw [h.queue]
    refine State.OffersAlike.batchCheck ?_
    split
    · exact ⟨h.phase, rfl, h.busy, h.quiet, h.notices, h.links⟩
    · exact ⟨h.phase, h.queue, h.busy, h.quiet, h.notices, congrArg (LinkInterface.raise · .queueOverrun) h.links⟩
  have only : t.QueueOnly (t.offerRecord r) := t.queueOnly_offerRecord r
  unfold State.QueueOnly at only
  rwa [moved.1, moved.2] at only

end Sys2Proof.Machine
end

section
/-! SUPPORT. The settlements of the doors and their trailer sensors, and DOOR_HELD (R41 to R49, R52, R58, R132, R180). -/

namespace Sys2Proof.Machine

variable {s t u : State} {d : Fin 32}

/-! ### The record of an edge (R43, R58) -/

theorem recordsAreQueued_spec : Claims.RecordsAreQueued := by
  intro s t r ht
  refine ⟨fun room => ?_, fun full => ?_⟩
  · have offered : s.offerRecord r = t.batchCheck := by
      rw [ht]
      exact congrArg State.batchCheck (if_pos room)
    exact ⟨offered, fun off => offered.trans (State.batchCheck_silent t (by rw [ht]; exact off))⟩
  · have lost : s.offerRecord r = (s.raise .queueOverrun).batchCheck :=
      congrArg State.batchCheck (if_neg (Nat.not_lt.mpr full))
    exact ⟨lost, fun off => lost.trans (State.batchCheck_silent _ off)⟩

theorem Channel.known_eq (x : Channel) : x.known = if x.lastEdge = none then none else some x.interval := by
  unfold Channel.known
  cases x.lastEdge <;> rfl

/-- An event captured on a channel that has just changed: the channel, and what its record leaves in the door event queue and on
the links (R58). -/
theorem State.capture_setChannel (s q : State) (d : Fin 32) (y : Channel) {k : RecordKind} {bit : Nat} (i : Option Nat)
    (hb : captureBit k = some bit)
    (hq : q = if y.config.capture.getLsbD bit = true then s.offerRecord ⟨d, k, s.clock.weekSecond, s.phase, i⟩ else s) :
    (s.setChannel d y).capture d k i = { s with
      doors := { s.doors with channels := s.doors.channels.set d y, queue := q.doors.queue }, links := q.links } := by
  unfold State.capture
  rw [hb, State.channel_setChannel, hq]
  dsimp only
  split
  · exact State.OffersAlike.offerRecord (s := s) (t := s.setChannel d y) ⟨rfl, rfl, rfl, rfl, rfl, rfl⟩ _
  · rfl

/-! ### Door activity (R132, R133) -/

/-- A frame of grants stands beside the same accounts and forecasts in both states, and beside curtains that are alike. -/
theorem State.GrantsOnly.beside (h : s.GrantsOnly t) (a : Accounts) (l : List Forecast) {x y : Table 16 Curtain}
    (alike : ∀ b, (x.get b).Alike (y.get b)) : State.GrantsOnly
      { s with accounts := a, doors := { s.doors with forecasts := l, curtains := x } }
      { t with accounts := a, doors := { t.doors with forecasts := l, curtains := y } } where
  power      := h.power
  clock      := h.clock
  calendar   := h.calendar
  sensors    := h.sensors
  store      := h.store
  accounts   := rfl
  owed       := h.owed
  pending    := h.pending
  channels   := h.channels
  rings      := h.rings
  records    := h.records
  thresholds := h.thresholds
  forecasts  := List.Sublist.refl l
  curtains   := fun b => (alike b).fields.1
  boards     := h.boards
  lines      := h.lines
  latches    := fun l k => h.latches l (k.imp_right (State.functionOn_none _ _ _).mp)
  light      := h.light
  groups     := h.groups
  caps       := h.caps
  ratings    := h.ratings
  times      := h.times
  settings   := h.settings
  zones      := h.zones
  links      := h.links
  climate    := h.climate
  demand     := h.demand
  curtain    := fun b => (alike b).fields.2
  windows    := rfl
  desired    := h.desired

/-- The lamp groups replaced by others that keep all but their levels, requests and grants, and the dimmers with them. -/
theorem State.grantsOnly_lamps (s : State) (x : Table 24 Group) (n : Table 24 Nat)
    (h : ∀ g, (s.lighting.groups.get g).Kept (x.get g) ∧ (x.get g).trim = (s.lighting.groups.get g).trim
      ∧ (x.get g).desired = (s.lighting.groups.get g).desired) :
    s.GrantsOnly { s with lighting := { s.lighting with groups := x }, lines := { s.lines with dimmers := n } } where
  toCycleOnly := s.cycleOnly_lamps x n fun g => (h g).1
  climate := rfl
  demand  := rfl
  curtain := fun _ => ⟨rfl, rfl⟩
  windows := rfl
  desired := fun g => (h g).2

theorem Group.takesOccupancy_iff (x : Group) : x.takesOccupancy = true ↔ x.state ≠ .disabled ∧ x.config.hold ≠ 0 := by
  unfold Group.takesOccupancy
  simp

/-- Door activity moves grants alone, from the zone's door-linked groups as they leave the occupancy event (R132, R133). -/
theorem State.doorActivity_grants (s : State) (z : Fin 8) : State.GrantsOnly
    { s with lighting := { s.lighting with groups := Claims.activityGroups s z } } (s.doorActivity z) := by
  refine .trans (State.grantsOnly_lamps _ _ _ fun g => ?_) (s.doorActivity_spec z _ rfl)
  dsimp only
  unfold Claims.activityGroups
  rw [Table.get_mapIdx, Table.get_mapIdx]
  have member : (g ∈ (indices 24).filter fun g => (s.lighting.groups.get g).takesOccupancy
      && (s.lighting.groups.get g).config.doorLinked && decide ((s.lighting.groups.get g).config.zone = z))
      ↔ (s.lighting.groups.get g).state ≠ .disabled ∧ (s.lighting.groups.get g).config.doorLinked = true
        ∧ (s.lighting.groups.get g).config.zone = z ∧ (s.lighting.groups.get g).config.hold ≠ 0 := by
    simp only [List.mem_filter, indices, List.mem_finRange, true_and, Bool.and_eq_true, Group.takesOccupancy_iff,
      decide_eq_true_eq]
    tauto
  simp only [member]
  split
  · next reached =>
    obtain ⟨-, -, -, hold⟩ := reached
    have occupied : (s.lighting.groups.get g).occupied = { s.lighting.groups.get g with
        hold := some (60 * (s.lighting.groups.get g).config.hold)
        state := if (s.lighting.groups.get g).state = .vacant then .lit else (s.lighting.groups.get g).state } := by
      unfold Group.occupied GroupConfig.fullHold
      rw [if_neg hold]
    rw [occupied]
    exact ⟨Group.requesting_kept _ _, rfl, rfl⟩
  · exact ⟨⟨rfl, rfl, rfl, rfl, rfl⟩, rfl, rfl⟩

/-- The Lighting Unit as the door activity of a channel's zone leaves it, before its requests are taken (R44, R46). -/
def State.activeLights (s : State) : Option (Fin 8) → Lighting
  | some z => { s.lighting with groups := Claims.activityGroups s z }
  | none => s.lighting

theorem State.activityOf_grants (s : State) (z : Option (Fin 8)) :
    State.GrantsOnly { s with lighting := s.activeLights z } (s.activityOf z) := by
  cases z with
  | none => exact .refl s
  | some z => exact s.doorActivity_grants z

/-! ### DOOR_OPENED (R44) -/

/-- The accounts with an opening credited to a channel's zone (R180). -/
def Accounts.opened (a : Accounts) : Option (Fin 8) → Accounts
  | some z => { a with current := { a.current with zones := a.current.zones.modify z fun x =>
      { x with openings := min 4294967295 (x.openings + 1), openSeconds := min 4294967295 x.openSeconds } } }
  | none => a

/-- What an opening hands on, its record taken: the opening credited, the forecast consumed, and the curtain's re-evaluation. -/
theorem State.openingOf_removeForecast (s : State) (z : Option (Fin 8)) (d : Fin 32) : (s.openingOf z).removeForecast d
    = { s with
        accounts := s.accounts.opened z
        doors := { s.doors with forecasts := s.doors.forecasts.filter fun f => f.door ≠ d } } := by
  cases z <;> rfl

theorem doorOpened_spec : Claims.DoorOpened := by
  intro s q u d x y running hx closed due hy hq hu
  have edge : exec (.doorOpened d) s = .next (s.doorOpens d) := by
    refine (State.run_running running _).trans (congrArg Host.Outcome.next (if_pos ⟨?_, ?_⟩))
    · unfold State.doorDue
      rw [← hx, due]
      rfl
    · rw [← hx, closed]
  have config : y.config = x.config := by rw [hy]
  rw [← Channel.known_eq] at hy hq
  -- the channel and its record, then the door activity, then the accounts and the forecast, then the curtain
  have captured := s.capture_setChannel q d y (k := .opened) (bit := 0) x.known rfl (by rw [config]; exact hq)
  generalize ha : (s.setChannel d y).capture d .opened x.known = a at captured
  have active := a.activityOf_grants x.config.zone
  generalize hb : a.activityOf x.config.zone = b at active
  have handed := b.openingOf_removeForecast x.config.zone d
  generalize hc : (b.openingOf x.config.zone).removeForecast d = c at handed
  have whole : s.doorOpens d = c.reevaluateOf x.config.curtain := by
    rw [← hc, ← hb, ← ha, hy, hx]
    rfl
  have accounts : b.accounts = s.accounts := active.accounts.trans (by rw [captured])
  have windows : b.doors.forecasts = s.doors.forecasts := active.windows.trans (by rw [captured])
  have channels : c.doors.channels = (s.setChannel d y).doors.channels := by
    rw [handed]
    exact active.channels.trans (by rw [captured]; rfl)
  have mode : c.zoneMode = (s.setChannel d y).zoneMode := by
    have climate : c.climate = s.climate := by
      rw [handed]
      exact active.climate.trans (by rw [captured])
    unfold State.zoneMode
    rw [climate]
    rfl
  have alike (i : Fin 16) : (s.doors.curtains.get i).Alike (c.doors.curtains.get i) := by
    have k := active.alike i
    rw [captured] at k
    rw [handed]
    exact k
  rw [accounts, windows] at handed
  have curtains := c.reevaluateOf_grants x.config.curtain
  have only := c.curtainsOnly_reevaluateOf x.config.curtain
  have rows := State.reevaluateOf_alike (s := s.setChannel d y) channels mode alike x.config.curtain
  refine ⟨_, edge, ?_, fun i hi configured curtain on => ?_, fun zoneless => ?_⟩
  · have moved := active.beside (s.accounts.opened x.config.zone) (s.doors.forecasts.filter fun f => f.door ≠ d) rows
    rw [whole]
    refine State.GrantsOnly.trans ?_ curtains
    rw [hu]
    subst captured handed
    exact moved
  · have kept := (alike i).fields.1
    rw [whole, hi]
    refine State.reevaluate_wanted ((State.curtainWanted_iff c i).mpr ⟨?_, ?_, d, ?_⟩)
    · rw [kept, curtain]
    · rw [kept, mode]
      exact on
    · have row : c.channel d = y := by
        unfold State.channel
        rw [channels]
        exact Table.get_set_same _ _ _
      rw [row, hy]
      exact ⟨configured, hi, .inl rfl⟩
  · rw [whole, only]
    rw [zoneless] at active hb
    subst hb captured handed
    exact ⟨rfl, rfl, rfl, rfl⟩

/-! ### DOOR_CLOSED (R45) -/

theorem doorClosed_spec : Claims.DoorClosed := by
  intro s q u d x y running hx stands due hy hq hu
  have edge : exec (.doorClosed d) s = .next (s.doorCloses d) := by
    refine (State.run_running running _).trans (congrArg Host.Outcome.next (if_pos ⟨?_, ?_⟩))
    · unfold State.doorDue
      rw [← hx, due]
      rfl
    · rw [Channel.isOpen_eq, ← hx]
      exact decide_eq_true stands
  have config : y.config = x.config := by rw [hy]
  rw [← Channel.known_eq] at hy hq
  have captured := s.capture_setChannel q d y (k := .closed) (bit := 1) x.known rfl (by rw [config]; exact hq)
  generalize ha : (s.setChannel d y).capture d .closed x.known = a at captured
  have whole : s.doorCloses d = a.reevaluateOf x.config.curtain := by
    rw [← ha, hy, hx]
    rfl
  have rows := State.reevaluateOf_alike (s := s.setChannel d y) (t := a) (by rw [captured]; rfl) (by rw [captured]; rfl)
    (fun b => by rw [captured]; exact .refl _) x.config.curtain
  have only := a.curtainsOnly_reevaluateOf x.config.curtain
  refine ⟨_, edge, ?_, ?_⟩
  · have moved := (State.GrantsOnly.refl a).beside s.accounts s.doors.forecasts rows
    rw [whole]
    refine State.GrantsOnly.trans ?_ (a.reevaluateOf_grants x.config.curtain)
    rw [hu]
    subst captured
    exact moved
  · rw [whole, only]
    subst captured
    exact ⟨rfl, rfl, rfl, rfl⟩

/-- Settles O31. -/
theorem doorEdges : Obligations.DoorEdges := ⟨recordsAreQueued_spec, doorOpened_spec, doorClosed_spec⟩

/-! ### First settlements (R41) -/

theorem firstContact (s u : State) (d : Fin 32) (x : Channel) (level : Bool) (running : s.power = .running)
    (hx : x = s.channel d) (unused : x.state = .unused) (due : x.doorPending = some ⟨level, 0⟩)
    (hu : u = s.setChannel d
      { x with state := if level then .opened else .closed, doorPending := none, interval := 0 }) :
    exec (.firstSettlement d .contact) s = .next (if level = true then u.reevaluateOf x.config.curtain else u) := by
  have waits : s.doorDue d = some level := by
    unfold State.doorDue
    rw [← hx, due]
    rfl
  refine (State.run_running running _).trans (congrArg Host.Outcome.next ((if_pos (hx ▸ unused)).trans ?_))
  unfold State.settleDoor
  rw [waits, ← hx, unused]
  unfold State.firstDoor; dsimp only
  rw [← hx, ← hu]

/-- The other curtains as a re-evaluation of one curtain, if any, leaves them: alike, no grant lost, and whole unless that curtain
went to IDLE (R52, R54, R123). -/
theorem State.reevaluateOf_others (s : State) (c : Option (Fin 16)) (b : Fin 16) (hb : c ≠ some b) :
    (s.doors.curtains.get b).Alike ((s.reevaluateOf c).doors.curtains.get b)
    ∧ s.KeepsGrant (s.reevaluateOf c) b
    ∧ ((∀ i, c = some i → (s.doors.curtains.get i).state = .idle
          ∨ ((s.reevaluateOf c).doors.curtains.get i).state ≠ .idle) →
        (s.reevaluateOf c).doors.curtains.get b = s.doors.curtains.get b) := by
  cases c with
  | none => exact ⟨.refl _, id, fun _ => rfl⟩
  | some c =>
    have other : b ≠ c := fun same => hb (congrArg some same.symm)
    obtain ⟨grant, whole⟩ := s.reevaluate_others c b other
    have row := s.reevaluate_row c b
    rw [if_neg other.symm] at row
    exact ⟨row, grant, fun h => whole (h c rfl)⟩

theorem firstSettlements_spec : Claims.FirstSettlements := by
  refine ⟨fun s u d x level running hx unused due hu => ?_, fun s d x level running hx fresh due => ?_⟩
  · generalize ht : (if level = true then u.reevaluateOf x.config.curtain else u) = t
    have moved : ∃ c, t = u.reevaluateOf c ∧ (c = x.config.curtain ∨ c = none) ∧ (level = true → c = x.config.curtain) := by
      cases level
      · exact ⟨none, ht.symm, .inr rfl, fun h => absurd h Bool.false_ne_true⟩
      · exact ⟨x.config.curtain, ht.symm, .inl rfl, fun _ => rfl⟩
    obtain ⟨c, hc, named, settledOpen⟩ := moved
    have only : u.CurtainsOnly t := hc ▸ u.curtainsOnly_reevaluateOf c
    have curtains : u.doors.curtains = s.doors.curtains := by rw [hu]; rfl
    have own : u.channel d = { x with state := if level then .opened else .closed, doorPending := none, interval := 0 } := by
      rw [hu]
      exact State.channel_setChannel s d _
    refine ⟨t, ?_, rfl, ?_, fun e he => ?_, ?_, ?_, ?_, ?_, ?_, fun i hl hi configured curtain on => ?_, fun b hb => ?_,
      fun h b hb => ?_⟩
    · rw [← ht]
      exact firstContact s u d x level running hx unused due hu
    · rw [only]
      exact own
    · rw [only, hu]
      exact Table.get_set_other _ _ _ _ (Ne.symm he)
    · rw [only, hu]; rfl
    · rw [only, hu]; rfl
    · rw [only, hu]; rfl
    · rw [only, hu]; rfl
    · rw [only, hu]; rfl
    · rw [settledOpen hl, hi] at hc
      have demanded : (t.doors.curtains.get i).state = .demanded := by
        rw [hc]
        refine State.reevaluate_wanted ((State.curtainWanted_iff u i).mpr ⟨by rw [curtains]; exact curtain, ?_, d, ?_⟩)
        · rw [curtains, hu]
          exact on
        · rw [own, hl]
          exact ⟨configured, hi, .inl rfl⟩
      refine ⟨demanded, fun b hb => ?_⟩
      rw [hc, ← curtains]
      refine (u.reevaluate_others i b hb).2 (.inr ?_)
      rw [show u.reevaluate i = t from hc.symm, demanded]
      decide
    · have other : c ≠ some b := by rcases named with rfl | rfl <;> simp [hb]
      obtain ⟨alike, grant, -⟩ := u.reevaluateOf_others c b other
      rw [← hc, curtains] at alike
      unfold State.KeepsGrant at grant
      rw [← hc, curtains] at grant
      obtain ⟨config, state, remaining⟩ := alike.fields
      exact ⟨config, state, remaining, grant⟩
    · have other : c ≠ some b := by rcases named with rfl | rfl <;> simp [hb]
      obtain ⟨-, -, whole⟩ := u.reevaluateOf_others c b other
      rw [← hc, curtains] at whole
      refine whole fun i hi => h i ?_
      rcases named with rfl | rfl
      · exact hi
      · cases hi
  · have waits : s.trailerDue d = some level := by
      unfold State.trailerDue
      rw [← hx, due]
      rfl
    refine (State.run_running running _).trans (congrArg Host.Outcome.next ((if_pos (hx ▸ fresh)).trans ?_))
    unfold State.settleTrailer
    rw [waits, ← hx, fresh]
    unfold State.firstTrailer; dsimp only
    rw [← hx]

/-! ### SETTLED_TRAILER_EDGE (R46) -/

theorem trailerEdges_spec : Claims.TrailerEdges := by
  intro s q u d x level running hx settled due hq hu
  have waits : s.trailerDue d = some level := by
    unfold State.trailerDue
    rw [← hx, due]
    rfl
  have edge : exec (.settledTrailerEdge d) s = .next (s.trailerEdge d level) := by
    refine (State.run_running running _).trans (congrArg Host.Outcome.next ((if_pos (hx ▸ settled)).trans ?_))
    unfold State.settleTrailer
    rw [waits, ← hx, settled]
  refine ⟨_, edge, ?_⟩
  unfold State.trailerEdge; dsimp only
  rw [← hx]
  cases level
  · have captured := s.capture_setChannel q d { x with trailer := false, trailerPending := none } (k := .trailerLeft) (bit := 3)
      none rfl hq
    have whole : (State.setChannel s d { x with trailer := false, trailerPending := none }).capture d .trailerLeft none = u := by
      rw [captured, hu]
    rw [if_neg Bool.false_ne_true, whole]
    exact ⟨.refl u, fun _ => rfl⟩
  · have captured := s.capture_setChannel q d { x with trailer := true, trailerPending := none } (k := .trailerArrived) (bit := 2)
      none rfl hq
    generalize (State.setChannel s d { x with trailer := true, trailerPending := none }).capture d .trailerArrived none = a
      at captured ⊢
    have active := a.activityOf_grants x.config.zone
    rw [if_pos rfl, hu]
    cases zone : x.config.zone with
    | none =>
      rw [captured]
      exact ⟨.refl _, fun _ => rfl⟩
    | some z =>
      rw [zone] at active
      refine ⟨?_, fun absent => absurd (absent.resolve_left (by decide)) (by simp)⟩
      subst captured
      exact active

/-- Settles O32. -/
theorem firstSettlementsAndTrailerEdges : Obligations.FirstSettlementsAndTrailerEdges :=
  ⟨firstSettlements_spec, trailerEdges_spec⟩

/-! ### DOOR_HELD (R47, R48, R49) -/

/-- Settles O33. -/
theorem doorHeld : Obligations.DoorHeld := by
  intro s q d x y n running owed hx opened hn limited reached hy hq
  refine ⟨?_, by simp [LinkInterface.isSet_raise]⟩
  have holding : s.holdingOpen d = true := (s.holdingOpen_iff d).mpr (by rw [← hx, ← hn]; exact ⟨opened, limited, reached⟩)
  have taken : exec (.doorHeld d) s = .next (State.doorSecond { s with owed := s.owed.erase (.door d) } d) := by
    refine (State.run_running running _).trans ?_
    rw [holding, State.takeNamed_due owed]
    rfl
  rw [taken]
  generalize hv : ({ s with owed := s.owed.erase (.door d) } : State) = v
  have row : v.channel d = x := by rw [hx, ← hv]; rfl
  have counted : satAdd Config.max16 x.interval 1 = n := hn.symm
  have compared : (v.setChannel d { x with interval := n }).compareDoor d
      = State.raise { v with
          doors := { v.doors with
            channels := v.doors.channels.set d { x with interval := n, state := .held }, queue := q.doors.queue }
          links := q.links } .doorHeld := by
    have due : (v.setChannel d { x with interval := n }).reachesLimit n = true := by
      rw [← hv]
      exact (State.reachesLimit_of_calendar (s := s) rfl).mpr ⟨limited, reached⟩
    rw [State.compareDoor_eq, State.channel_setChannel, State.setChannel_setChannel, if_pos ⟨opened, due⟩, hq, ← hv]
    refine congrArg (State.raise · .doorHeld) ?_
    exact State.OffersAlike.offerRecord (s := s)
      (t := State.setChannel { s with owed := s.owed.erase (.door d) } d { x with interval := n, state := .held })
      ⟨rfl, rfl, rfl, rfl, rfl, rfl⟩ _
  have held : v.doorSecond d = State.openSecond (State.raise { v with
      doors := { v.doors with
        channels := v.doors.channels.set d { x with interval := n, state := .held }, queue := q.doors.queue }
      links := q.links } .doorHeld) d := by
    rw [← compared]
    unfold State.doorSecond; dsimp only
    rw [row, if_neg (by rw [opened]; decide), counted]
  rw [held]
  generalize hw : (State.raise { v with
    doors := { v.doors with
      channels := v.doors.channels.set d { x with interval := n, state := .held }, queue := q.doors.queue }
    links := q.links } .doorHeld) = w
  have standing : w.channel d = { x with interval := n, state := .held } := by rw [← hw]; exact Table.get_set_same _ _ _
  rw [State.openSecond_open (d := d) (by rw [standing]; rfl) y (by rw [standing, hy]), standing]
  subst hw hv
  dsimp only
  have channels : (s.doors.channels.set d { x with interval := n, state := .held }).set d y = s.doors.channels.set d y :=
    Table.set_set _ _ _ _
  cases x.config.zone with
  | none => simp [State.setChannel, channels]
  | some z => simp [State.setChannel, channels, State.addOpenSecond, State.creditZone, satAdd, Config.max16, Config.max32]

end Sys2Proof.Machine
end

section
/-! SUPPORT. ZONE_MODE and ZONE_MANUAL, and what a mode event makes of the zone's curtains, its forecasts and its stages (R66, R84,
R86, R87, R114, R125). -/

namespace Sys2Proof.Machine

variable {s t u : State} {z : Fin 8}

/-! ### The two calls (R84, R87) -/

theorem mayAsk_iff (m : ZoneMode) : mayAsk m = true ↔ m ≠ .degraded := by cases m <;> decide

theorem ownZoneMode_eq {a : ZoneModeArgs} {m : ZoneMode} (hz : a.zone.toNat = z.val) (hm : a.mode = some m)
    (asked : m ≠ .degraded) : ownZoneMode a s =
      if (s.climate.zones.get z).mode = m ∨ ((s.climate.zones.get z).mode = .degraded ∧ m = .auto) then
        .report s (.zoneMode (s.climate.zones.get z).mode)
      else
        { state := s.setZone z { s.climate.zones.get z with mode := m }, reply := ⟨.ok, .zoneMode m⟩
          after := fun t => (t.modeEvent z).cycle } := by
  unfold ownZoneMode
  rw [row_of_val hz, hm]
  exact if_pos ((mayAsk_iff m).mpr asked)

theorem ownZoneMode_range {a : ZoneModeArgs} (h : 7 < a.zone.toNat ∨ a.mode = none ∨ a.mode = some .degraded) :
    ownZoneMode a s = .turnedAway s .range := by
  unfold ownZoneMode
  split
  · next z m hz hm =>
    refine if_neg fun asked => ?_
    rw [mayAsk_iff] at asked
    rcases h with h | h | h
    · cases (row_outside (n := 8) h).symm.trans hz
    · cases h.symm.trans hm
    · exact asked (Option.some.inj (hm.symm.trans h))
  · rfl

theorem zoneModeAndManualCalls_spec : Claims.ZoneModeAndManualCalls := by
  refine ⟨fun s o a z m x h hz hm asked hx => ?_, fun s o a h hr => State.runCall_turnedAway h (ownZoneMode_range hr),
    fun s o a z x heat fans h hz hx hheat hfans => ?_, fun s o a h hr => State.runCall_turnedAway h ?_⟩
  · subst hx
    have own := ownZoneMode_eq (s := s.setReceiver o.link .hunting) hz hm asked
    split
    · next standing => exact State.runCall_answers h s (own.trans (if_pos standing))
    · next changed =>
      exact State.runCall_hands (f := fun t => (t.modeEvent z).cycle) h (s.setZone z { s.climate.zones.get z with mode := m })
        (own.trans (if_neg changed))
  · subst hx
    refine State.runCall_answers h (s.setZone z { s.climate.zones.get z with manualHeat := heat, manualFans := fans }) ?_
    have status : okOrClamped (heat != a.heat.toNat || fans != a.fans.toNat)
        = if heat = a.heat.toNat ∧ fans = a.fans.toNat then .ok else .clamped := by
      unfold okOrClamped
      by_cases same : heat = a.heat.toNat <;> by_cases also : fans = a.fans.toNat <;> simp [same, also]
    unfold ownZoneManual
    simp only [row_of_val hz, setReceiver_climate, ← hheat, ← hfans, status]
    rfl
  · unfold ownZoneManual
    rw [row_outside hr]

/-! ### A mode event in the Door Unit (R52, R66) -/

/-- The curtains of a zone re-evaluated, in the order of a list (R66). -/
def State.reevaluateZone (s : State) (z : Fin 8) (l : List (Fin 16)) : State :=
  l.foldl (fun t c => if (t.doors.curtains.get c).config.zone = z then t.reevaluate c else t) s

theorem State.doorMode_eq (s : State) (z : Fin 8) : s.doorMode z
    = State.reevaluateZone { s with doors := { s.doors with forecasts := s.forecastsAfter z } } z (indices 16) := by
  unfold State.doorMode State.forecastsAfter State.reevaluateZone State.forEach; dsimp only
  split <;> rfl

theorem State.curtainsOnly_reevaluateZone (s : State) (z : Fin 8) (l : List (Fin 16)) :
    s.CurtainsOnly (s.reevaluateZone z l) := by
  refine foldl_keeps State.CurtainsOnly .refl .trans _ (fun t c => ?_) l s
  split
  · exact t.curtainsOnly_reevaluate c
  · exact .refl t

/-- A curtain that a list does not name stands, but for its grant, when the list's curtains re-evaluate. -/
theorem State.reevaluateZone_others {c : Fin 16} {l : List (Fin 16)} (hc : c ∉ l) (s : State) :
    (s.doors.curtains.get c).Alike ((s.reevaluateZone z l).doors.curtains.get c) := by
  induction l generalizing s with
  | nil => exact .refl _
  | cons a l ih =>
    rw [List.mem_cons, not_or] at hc
    obtain ⟨other, rest⟩ := hc
    refine .trans ?_ (ih rest _)
    dsimp only
    split
    · have row := s.reevaluate_row a c
      rwa [if_neg (Ne.symm other)] at row
    · exact .refl _

/-- A curtain of the zone that a list names once is left as its own re-evaluation leaves it, but for its grant (R52, R66). -/
theorem State.reevaluateZone_own {c : Fin 16} {l : List (Fin 16)} (hc : c ∈ l) (once : l.Nodup) (s : State)
    (own : (s.doors.curtains.get c).config.zone = z) :
    (s.evaluated c).1.Alike ((s.reevaluateZone z l).doors.curtains.get c) := by
  induction l generalizing s with
  | nil => cases hc
  | cons a l ih =>
    obtain ⟨new, once⟩ := List.nodup_cons.mp once
    have step : s.reevaluateZone z (a :: l)
        = (if (s.doors.curtains.get a).config.zone = z then s.reevaluate a else s).reevaluateZone z l := rfl
    rw [step]
    by_cases same : a = c
    · subst same
      rw [if_pos own]
      have row := s.reevaluate_row a a
      rw [if_pos rfl] at row
      exact row.trans (State.reevaluateZone_others new _)
    · have named : c ∈ l := (List.mem_cons.mp hc).resolve_left (Ne.symm same)
      split
      · have row := s.reevaluate_row a c
        rw [if_neg same] at row
        have only := s.curtainsOnly_reevaluate a
        refine (State.evaluated_alike (by rw [only]) (by rw [only]; rfl) row).1.trans (ih named once _ ?_)
        rw [row.fields.1]
        exact own
      · exact ih named once s own

/-- What a mode event leaves of the part in the Door Unit: the zone's forecasts, and the curtains with their grants (R66). -/
theorem State.curtainsOnly_doorMode (s : State) (z : Fin 8) : State.CurtainsOnly
    { s with doors := { s.doors with forecasts := s.forecastsAfter z } } (s.doorMode z) := by
  rw [State.doorMode_eq]
  exact State.curtainsOnly_reevaluateZone _ z _

theorem State.doorMode_own (c : Fin 16) (hc : (s.doors.curtains.get c).config.zone = z) :
    (s.evaluated c).1.Alike ((s.doorMode z).doors.curtains.get c) := by
  rw [State.doorMode_eq]
  generalize hv : ({ s with doors := { s.doors with forecasts := s.forecastsAfter z } } : State) = v
  have evaluated : v.evaluated c = s.evaluated c := by rw [← hv]; rfl
  rw [← evaluated]
  exact State.reevaluateZone_own (l := indices 16) (List.mem_finRange c) (List.nodup_finRange 16) v (by rw [← hv]; exact hc)

/-! ### A mode event to OFF in the Load Allocator (R114, R125) -/

theorem State.markOff_demandOf (s : State) (z y : Fin 8) : (s.markOff z).budget.demandOf y
    = if z = y then ZoneDemand.offEntry else s.budget.demandOf y := by
  unfold State.markOff Allocator.demandOf; dsimp only
  cases s.budget.demand with
  | none => simp
  | some d => exact Table.get_set _ _ _ _

/-- What a zone going OFF leaves in the allocator: the zone marked OFF in the last demand set and holding no stage, each stage
that was on switched off at this instant; the other zones, the groups and the count of passes as they were. -/
structure State.ReleasesStages (s t : State) (z : Fin 8) : Prop where
  lighting : t.lighting = s.lighting
  groups   : t.budget.groups = s.budget.groups
  passes   : t.budget.passes = s.budget.passes
  demand   : ∀ y, t.budget.demandOf y = if z = y then ZoneDemand.offEntry else s.budget.demandOf y
  stages   : (t.budget.zones.get z).heat = 0 ∧ (t.budget.zones.get z).fans = 0
  times    : ∀ i : Fin 4, i.val < (s.budget.zones.get z).heat → (t.budget.zones.get z).times.get i = 0
  others   : ∀ y, y ≠ z → t.budget.zones.get y = s.budget.zones.get y

theorem State.zoneOff_idle (h : (s.budget.zones.get z).heat = 0 ∧ (s.budget.zones.get z).fans = 0) :
    s.zoneOff z = s.markOff z := if_pos h

/-- A zone's record once its stages have switched off (R125). -/
def ZoneGrant.released (g : ZoneGrant) : ZoneGrant := { g.setHeat 0 with fans := 0, committed := 0, floorFans := 0 }

theorem ZoneGrant.released_times (g : ZoneGrant) (i : Fin 4) (on : i.val < g.heat) : g.released.times.get i = 0 := by
  unfold ZoneGrant.released ZoneGrant.setHeat
  simp [on]

theorem State.zoneOff_held (h : ¬ ((s.budget.zones.get z).heat = 0 ∧ (s.budget.zones.get z).fans = 0)) : State.CurtainsOnly
    (((s.markOff z).setGrant z (s.budget.zones.get z).released).setReserved (s.budget.reserved - s.budget.zoneReserved z))
    (s.zoneOff z) := by
  have off : s.zoneOff z = State.retryCurtains ((((s.markOff z).setGrant z (s.budget.zones.get z).released).setTotal
      (s.budget.total - s.budget.zoneLoad z)).setReserved (s.budget.reserved - s.budget.zoneReserved z)) := if_neg h
  rw [off]
  exact (State.curtainsOnly_setTotal (State.setReserved ((s.markOff z).setGrant z (s.budget.zones.get z).released)
    (s.budget.reserved - s.budget.zoneReserved z)) _).trans (State.curtainsOnly_retryCurtains _)

theorem State.zoneOff_releases (s : State) (z : Fin 8) : s.ReleasesStages (s.zoneOff z) z := by
  have marked := s.markOff_demandOf z
  by_cases idle : (s.budget.zones.get z).heat = 0 ∧ (s.budget.zones.get z).fans = 0
  · rw [State.zoneOff_idle idle]
    refine ⟨rfl, rfl, rfl, marked, idle, fun i on => ?_, fun _ _ => rfl⟩
    rw [idle.1] at on
    exact absurd on (Nat.not_lt_zero _)
  · have only := State.zoneOff_held idle
    generalize s.zoneOff z = t at only ⊢
    have zone : t.budget.zones.get z = (s.budget.zones.get z).released := by
      rw [only]
      exact Table.get_set_same _ _ _
    refine ⟨by rw [only]; rfl, by rw [only]; rfl, by rw [only]; rfl, fun y => ?_, by rw [zone]; exact ⟨rfl, rfl⟩,
      fun i on => ?_, fun y hy => ?_⟩
    · rw [only]
      exact marked y
    · rw [zone]
      exact ZoneGrant.released_times _ i on
    · rw [only]
      exact Table.get_set_other _ _ _ _ hy.symm

/-! ### The mode event whole (R86) -/

theorem State.modeEvent_eq (s : State) (z : Fin 8) :
    s.modeEvent z = if s.zoneMode z = .off then (s.doorMode z).zoneOff z else s.doorMode z := by
  have mode : (s.doorMode z).zoneMode z = s.zoneMode z := by
    unfold State.zoneMode
    rw [(s.doorMode_moves z).climate]
  unfold State.modeEvent; dsimp only
  rw [mode]

theorem modeEvents_spec : Claims.ModeEvents := by
  intro s t z ht
  obtain ⟨climate, forecasts, others⟩ := s.modeEvent_moves z
  have frame := s.cycleOnly_modeEvent z
  have links := s.modeEvent_links z
  have event := s.modeEvent_eq z
  have own (c : Fin 16) := s.doorMode_own (z := z) c
  have only := s.curtainsOnly_doorMode z
  rw [← ht] at climate forecasts others frame links event
  generalize s.doorMode z = w at event own only
  have released := w.zoneOff_releases z
  have stands (c : Fin 16) : t.curtainStands c = w.curtainStands c := by
    rw [event]
    split
    · exact (w.zoneOff_moves z).2.2 c
    · rfl
  generalize w.zoneOff z = r at released event
  have lighting : w.lighting = s.lighting := by rw [only]
  have budget : w.budget = { s.budget with total := w.budget.total } := congrArg State.budget only
  have zones : w.budget.zones = s.budget.zones := by rw [budget]
  have demand : w.budget.demand = s.budget.demand := by rw [budget]
  have demandOf (y : Fin 8) : w.budget.demandOf y = s.budget.demandOf y := by
    unfold Allocator.demandOf
    rw [demand]
  have groups : w.budget.groups = s.budget.groups := by rw [budget]
  have passes : w.budget.passes = s.budget.passes := by rw [budget]
  have curtain (c : Fin 16) (hz : (s.doors.curtains.get c).config.zone = z) (y : Curtain)
      (hy : y = (s.reevaluate c).doors.curtains.get c) :
      (t.doors.curtains.get c).state = y.state ∧ (t.doors.curtains.get c).remaining = y.remaining := by
    have row := s.reevaluate_row c c
    rw [if_pos rfl, ← hy] at row
    obtain ⟨-, state, remaining⟩ := (row.symm.trans (own c hz)).fields
    obtain ⟨state', remaining'⟩ := Prod.mk.injEq _ _ _ _ ▸ stands c
    exact ⟨state'.trans state, remaining'.trans remaining⟩
  have apart (c : Fin 16) (hz : (s.doors.curtains.get c).config.zone ≠ z) :
      (t.doors.curtains.get c).state = (s.doors.curtains.get c).state
      ∧ (t.doors.curtains.get c).remaining = (s.doors.curtains.get c).remaining := Prod.mk.injEq _ _ _ _ ▸ others c hz
  by_cases off : s.zoneMode z = .off
  · rw [if_pos off] at event
    subst event
    refine ⟨frame, climate, released.lighting.trans lighting, links, released.groups.trans groups,
      released.passes.trans passes, forecasts, fun c x hx => hx ▸ ⟨curtain c, apart c⟩, fun _ => ⟨?_, released.stages.1,
      released.stages.2, fun i on => released.times i (by rw [zones]; exact on)⟩, fun on => absurd off on,
      fun y hy => ⟨(released.others y hy).trans (by rw [zones]), ?_⟩⟩
    · exact (released.demand z).trans (if_pos rfl)
    · exact ((released.demand y).trans (if_neg (Ne.symm hy))).trans (demandOf y)
  · rw [if_neg off] at event
    subst event
    exact ⟨frame, climate, lighting, links, groups, passes, forecasts, fun c x hx => hx ▸ ⟨curtain c, apart c⟩,
      fun on => absurd on off, fun _ => ⟨zones, demand⟩, fun y _ => ⟨by rw [zones], demandOf y⟩⟩

/-- Settles O41. -/
theorem zoneModeAndManual : Obligations.ZoneModeAndManual := ⟨zoneModeAndManualCalls_spec, modeEvents_spec⟩

end Sys2Proof.Machine
end

section
/-! SUPPORT. What a pass leaves fits the cap, the lamp groups' floors included, and a lighting request that names the floor its
group had requested calls for no second pass: the grants a pass hands on bring no set event and no pass of their own unless one
of them names another floor (R115 to R121, R124, R139, R140). -/

namespace Sys2Proof.Machine

variable {s t u : State}

/-! ### Sums of ratings and draws (R110, R121) -/

theorem Table.sum_ofFn_le {n : Nat} {f g : Fin n → Nat} (i : Fin n) (d : Nat) (row : f i ≤ g i + d)
    (others : ∀ j, i ≠ j → f j = g j) : (Table.ofFn f).sum ≤ (Table.ofFn g).sum + d := by
  have split (h : Fin n → Nat) : (Table.ofFn h).sum = h i + ∑ j ∈ Finset.univ.erase i, h j :=
    List.sum_ofFn.trans (Finset.add_sum_erase _ h (Finset.mem_univ i)).symm
  have rest : ∑ j ∈ Finset.univ.erase i, f j = ∑ j ∈ Finset.univ.erase i, g j :=
    Finset.sum_congr rfl fun j hj => others j (Finset.ne_of_mem_erase hj).symm
  rw [split f, split g]
  omega

theorem draw_le_draw (rating : Nat) {m n : Nat} (h : m ≤ n) : draw rating m ≤ draw rating n :=
  Nat.div_le_div_right (Nat.add_le_add_right (Nat.mul_le_mul_left rating h) _)

theorem largestLevel_fits (rating base n budget : Nat) :
    draw rating (largestLevel rating base n budget) - draw rating base ≤ budget := by
  obtain ⟨-, fits, -⟩ := largestWhere_spec (fun k => draw rating (base + k) - draw rating base ≤ budget) n
  unfold largestLevel
  by_cases none : largestWhere (fun k => draw rating (base + k) - draw rating base ≤ budget) n = 0
  · rw [none]
    exact (Nat.sub_self _).trans_le (Nat.zero_le _)
  · exact of_decide_eq_true (fits none)

theorem raisedLevel_fits (rating granted desired : Nat) (headroom : Int) :
    raisedLevel rating granted desired headroom = granted
    ∨ (draw rating (raisedLevel rating granted desired headroom) - draw rating granted : Nat) ≤ headroom := by
  unfold raisedLevel
  split
  · next raised =>
    have fits := largestLevel_fits rating granted (desired - granted) headroom.toNat
    omega
  · exact .inl rfl

theorem stagesRating_succ (r : Table 4 Nat) (k : Nat) : stagesRating r (k + 1) = stagesRating r k + stageRating r (k + 1) := by
  unfold stagesRating stageRating nth1
  rw [Nat.add_sub_cancel]
  generalize r.rows = l
  induction k generalizing l with
  | zero => cases l <;> simp
  | succ k ih =>
    cases l with
    | nil => simp
    | cons a l =>
      simp only [List.take_succ_cons, List.sum_cons, List.drop_succ_cons]
      rw [ih l, Nat.add_assoc]

theorem Grants.total_heat (g : Grants) (r : Ratings) (z : Fin 8) {k d : Nat}
    (h : stagesRating (r.heaters.get z) k ≤ stagesRating (r.heaters.get z) (g.heat.get z) + d) :
    Grants.total { g with heat := g.heat.set z k } r ≤ g.total r + d := by
  have row := Table.sum_ofFn_le (f := fun y => stagesRating (r.heaters.get y) ((g.heat.set z k).get y))
    (g := fun y => stagesRating (r.heaters.get y) (g.heat.get y)) z d (by simpa using h) (fun j hj => by simp [hj])
  unfold Grants.total; dsimp only
  omega

theorem Grants.total_fans (g : Grants) (r : Ratings) (z : Fin 8) {k d : Nat}
    (h : r.fans.get z * k ≤ r.fans.get z * g.fans.get z + d) :
    Grants.total { g with fans := g.fans.set z k } r ≤ g.total r + d := by
  have row := Table.sum_ofFn_le (f := fun y => r.fans.get y * (g.fans.set z k).get y)
    (g := fun y => r.fans.get y * g.fans.get y) z d (by simpa using h) (fun j hj => by simp [hj])
  unfold Grants.total; dsimp only
  omega

theorem Grants.total_curtain (g : Grants) (r : Ratings) (c : Fin 16) :
    Grants.total { g with curtains := g.curtains.set c true } r ≤ g.total r + r.curtains.get c := by
  have row := Table.sum_ofFn_le (f := fun y => if (g.curtains.set c true).get y then r.curtains.get y else 0)
    (g := fun y => if g.curtains.get y then r.curtains.get y else 0) c (r.curtains.get c) (by simp)
    (fun j hj => by simp [hj])
  unfold Grants.total; dsimp only
  omega

theorem Grants.total_level (g : Grants) (r : Ratings) (x : Fin 24) {k d : Nat}
    (h : draw (r.groups.get x) k ≤ draw (r.groups.get x) (g.levels.get x) + d) :
    Grants.total { g with levels := g.levels.set x k } r ≤ g.total r + d := by
  have row := Table.sum_ofFn_le (f := fun y => draw (r.groups.get y) ((g.levels.set x k).get y))
    (g := fun y => draw (r.groups.get y) (g.levels.get y)) x d (by simpa using h) (fun j hj => by simp [hj])
  unfold Grants.total; dsimp only
  omega

/-! ### The classes of a pass stay within the cap (R115, R118 to R120) -/

/-- The grants so far leave their remainder of the cap, and give every lamp group its floor. -/
structure Round.Fits (w : Round) (a : Allocator) : Prop where
  total  : w.grants.total a.ratings + w.left ≤ a.capInForce
  levels : ∀ g, (a.groups.get g).floorRequest ≤ w.grants.levels.get g

theorem Round.Fits.offerCurtain {w : Round} (h : w.Fits s.budget) (c : Fin 16) : (w.offerCurtain s c).Fits s.budget := by
  unfold Round.offerCurtain; dsimp only
  split
  · next offered =>
    have total := w.grants.total_curtain s.budget.ratings c
    have room := h.total
    refine ⟨?_, h.levels⟩
    dsimp only
    omega
  · exact h

theorem Round.Fits.offerFan {w : Round} {a : Allocator} (h : w.Fits a) (r : Nat) (z : Fin 8) : (w.offerFan a r z).Fits a := by
  unfold Round.offerFan; dsimp only
  split
  · next offered =>
    obtain ⟨-, next, fits⟩ := offered
    have total := w.grants.total_fans a.ratings z (k := r) (d := a.ratings.fans.get z) (by rw [← next, Nat.mul_succ])
    have room := h.total
    refine ⟨?_, h.levels⟩
    dsimp only
    omega
  · exact h

theorem Round.Fits.offerHeat {w : Round} {a : Allocator} (h : w.Fits a) (r : Nat) (z : Fin 8) : (w.offerHeat a r z).Fits a := by
  unfold Round.offerHeat; dsimp only
  split
  · next offered =>
    obtain ⟨-, next, -, fits⟩ := offered
    have total := w.grants.total_heat a.ratings z (k := r) (d := stageRating (a.ratings.heaters.get z) r)
      (by rw [← next, stagesRating_succ])
    have room := h.total
    refine ⟨?_, h.levels⟩
    dsimp only
    omega
  · exact h

theorem Round.Fits.offerLight {w : Round} {a : Allocator} (h : w.Fits a) (g : Fin 24) : (w.offerLight a g).Fits a := by
  unfold Round.offerLight; dsimp only
  have room := h.total
  have fits := largestLevel_fits (a.ratings.groups.get g) (a.groups.get g).floorRequest
    ((a.groups.get g).wanted - (a.groups.get g).floorRequest) w.left
  obtain ⟨floor, -⟩ := largestLevel_between (a.ratings.groups.get g) (a.groups.get g).floorRequest
    ((a.groups.get g).wanted - (a.groups.get g).floorRequest) w.left
  generalize largestLevel (a.ratings.groups.get g) (a.groups.get g).floorRequest
    ((a.groups.get g).wanted - (a.groups.get g).floorRequest) w.left = top at fits floor ⊢
  have held := draw_le_draw (a.ratings.groups.get g) (h.levels g)
  have total := w.grants.total_level a.ratings g (k := top)
    (d := draw (a.ratings.groups.get g) top - draw (a.ratings.groups.get g) (a.groups.get g).floorRequest) (by omega)
  refine ⟨?_, fun y => ?_⟩
  · dsimp only
    omega
  · dsimp only
    rw [Table.get_set]
    split
    · next same => exact same ▸ floor
    · exact h.levels y

theorem Round.Fits.foldl {β : Type} {a : Allocator} (f : Round → β → Round) (step : ∀ w b, Round.Fits w a → (f w b).Fits a)
    (l : List β) {w : Round} (h : w.Fits a) : (l.foldl f w).Fits a :=
  foldl_keeps (fun v w : Round => v.Fits a → w.Fits a) (fun _ => id) (fun first next kept => next (first kept)) f
    (fun w b kept => step w b kept) l w h

theorem State.offerClasses_fits {w : Round} (h : w.Fits s.budget) : (s.offerClasses w).Fits s.budget := by
  unfold State.offerClasses; dsimp only
  refine .foldl _ (fun w g kept => kept.offerLight g) _ ?_
  refine .foldl _ (fun w r kept => .foldl _ (fun w z kept => kept.offerHeat r z) _ kept) _ ?_
  refine .foldl _ (fun w r kept => .foldl _ (fun w z kept => kept.offerFan r z) _ kept) _ ?_
  exact .foldl _ (fun w c kept => kept.offerCurtain c) _ h

theorem Allocator.reservedGrants_level (a : Allocator) (g : Fin 24) :
    a.reservedGrants.levels.get g = (a.groups.get g).floorRequest := Table.get_map _ _ _

/-- A pass grants no more than the cap, or the reserved class alone, and every lamp group its floor (R116, R121). -/
theorem State.passGrants_fit (s : State) :
    s.passGrants.total s.budget.ratings ≤ max s.budget.capInForce (s.budget.reservedGrants.total s.budget.ratings)
    ∧ ∀ g, (s.budget.groups.get g).floorRequest ≤ s.passGrants.levels.get g := by
  unfold State.passGrants; dsimp only
  split
  · exact ⟨Nat.le_max_right _ _, fun g => (s.budget.reservedGrants_level g).ge⟩
  · next within =>
    have fits := State.offerClasses_fits (s := s)
      (w := ⟨s.budget.reservedGrants, s.budget.capInForce - s.budget.reservedGrants.total s.budget.ratings⟩)
      ⟨by dsimp only; omega, fun g => (s.budget.reservedGrants_level g).ge⟩
    have total := fits.total
    exact ⟨le_max_of_le_left (by omega), fits.levels⟩

/-! ### Calm: nothing more than the cap or the reserved total, and every floor granted (R124) -/

/-- Not overdrawn, and every lamp group granted the floor it had requested. -/
structure State.Calm (s : State) : Prop where
  within  : s.budget.total ≤ max s.budget.capInForce s.budget.reserved
  covered : ∀ g, (s.budget.groups.get g).floorRequest ≤ (s.budget.groups.get g).level

theorem State.Calm.not_overdrawn (h : s.Calm) : s.budget.overdrawn = false := by
  have within := h.within
  unfold Allocator.overdrawn
  refine decide_eq_false ?_
  omega

theorem State.pass_budget (s : State) : s.pass.budget = s.passBudget := rfl

theorem State.pass_calm (s : State) : s.pass.Calm := by
  obtain ⟨total, levels⟩ := s.passGrants_fit
  refine ⟨?_, fun g => ?_⟩ <;> rw [s.pass_budget]
  · have granted : s.passBudget.total = s.passGrants.total s.budget.ratings := rfl
    have held : s.passBudget.reserved = s.budget.reservedGrants.total s.budget.ratings := rfl
    have cap : s.passBudget.capInForce = s.budget.capInForce := rfl
    rw [granted, held, cap]
    exact total
  · rw [s.passBudget_group]
    generalize s.passGrants = grants at levels ⊢
    exact levels g

theorem State.tryCurtain_calm (h : s.Calm) (c : Fin 16) : (s.tryCurtain c).Calm := by
  unfold State.tryCurtain; dsimp only
  split
  · next taken =>
    obtain ⟨-, -, fits⟩ := taken
    unfold Allocator.headroom at fits
    have cap : s.budget.total + s.budget.ratings.curtains.get c ≤ s.budget.capInForce := by omega
    exact ⟨le_max_of_le_left cap, h.covered⟩
  · exact h

theorem State.retryCurtains_calm (h : s.Calm) : s.retryCurtains.Calm := by
  have tried : (s.forEach 16 fun c s => s.tryCurtain c).Calm :=
    foldl_keeps (fun s t : State => s.Calm → t.Calm) (fun _ => id) (fun first next kept => next (first kept)) _
      (fun t c kept => State.tryCurtain_calm kept c) _ s h
  unfold State.retryCurtains
  generalize (s.forEach 16 fun c s => s.tryCurtain c) = t at tried
  exact ⟨tried.within, tried.covered⟩

/-! ### Quietly: grants moved with no set event, no pass and no change of a floor or a stage (R124, R140) -/

/-- Grants alone move, and of those no zone's, no floor requested and no curtain's granted before; nothing is said on the links,
no pass made, and the reserved total stands. -/
structure State.Quietly (s t : State) : Prop where
  grants   : s.GrantsOnly t
  links    : t.links = s.links
  zones    : t.budget.zones = s.budget.zones
  passes   : t.budget.passes = s.budget.passes
  reserved : t.budget.reserved = s.budget.reserved
  floors   : ∀ g, (t.budget.groups.get g).floorRequest = (s.budget.groups.get g).floorRequest
  curtains : ∀ c, (s.doors.curtains.get c).granted = true → (t.doors.curtains.get c).granted = true

theorem State.Quietly.refl (s : State) : s.Quietly s := ⟨.refl s, rfl, rfl, rfl, rfl, fun _ => rfl, fun _ => id⟩

theorem State.Quietly.trans (h : s.Quietly t) (k : t.Quietly u) : s.Quietly u where
  grants := h.grants.trans k.grants
  links := k.links.trans h.links
  zones := k.zones.trans h.zones
  passes := k.passes.trans h.passes
  reserved := k.reserved.trans h.reserved
  floors g := (k.floors g).trans (h.floors g)
  curtains c on := k.curtains c (h.curtains c on)

theorem State.retryCurtains_quietly (s : State) : s.Quietly s.retryCurtains := by
  have only := s.curtainsOnly_retryCurtains
  have kept := fun c => s.keepsGrant_retryCurtains c
  have grants := s.grantsOnly_retryCurtains
  generalize s.retryCurtains = t at *
  exact ⟨grants, by rw [only], by rw [only], by rw [only], by rw [only], fun _ => by rw [only], kept⟩

theorem State.takeGrants_beside (s before : State) : (s.takeGrants before).1.budget = s.budget
    ∧ (s.takeGrants before).1.links = s.links ∧ (s.takeGrants before).1.doors = s.doors :=
  State.takeGrants_keeps (fun s t => t.budget = s.budget ∧ t.links = s.links ∧ t.doors = s.doors)
    (fun _ => ⟨rfl, rfl, rfl⟩) (fun h k => ⟨k.1.trans h.1, k.2.1.trans h.2.1, k.2.2.trans h.2.2⟩)
    (fun _ _ => ⟨rfl, rfl, rfl⟩) s before

theorem State.takeGrants_quietly (s before : State) : s.Quietly (s.takeGrants before).1 := by
  obtain ⟨budget, links, doors⟩ := s.takeGrants_beside before
  exact ⟨s.grantsOnly_takeGrants before, links, by rw [budget], by rw [budget], by rw [budget], fun _ => by rw [budget],
    fun c on => by rw [doors]; exact on⟩

theorem State.takeGrants_calm (h : s.Calm) (before : State) : (s.takeGrants before).1.Calm := by
  obtain ⟨budget, -, -⟩ := s.takeGrants_beside before
  exact ⟨by rw [budget]; exact h.within, by rw [budget]; exact h.covered⟩

/-! ### A request that names the floor its group had requested (R124, R139) -/

/-- The floor a lamp group's request names (R139). -/
def State.floorAsked (s : State) (g : Fin 24) : Nat := ((s.lighting.groups.get g).requestNow (s.scene g)).1

theorem Group.requestNow_floor (x : Group) (sc : Scene) :
    (x.requestNow sc).1 = if x.state = .disabled then 0 else sc.floor := by
  unfold Group.requestNow
  split <;> rfl

theorem State.GrantsOnly.floorAsked (h : s.GrantsOnly t) (g : Fin 24) : t.floorAsked g = s.floorAsked g := by
  unfold State.floorAsked
  rw [Group.requestNow_floor, Group.requestNow_floor, h.toCycleOnly.scene, (h.groups g).2.1]

/-- A request with the floor its group had requested, which is the floor the group still asks for. -/
structure LightRequest.SameFloor (q : LightRequest) (s : State) : Prop where
  requested : q.floor = (s.budget.groups.get q.group).floorRequest
  asked     : q.floor = s.floorAsked q.group

theorem LightRequest.SameFloor.quietly {q : LightRequest} (h : q.SameFloor s) (k : s.Quietly t) : q.SameFloor t :=
  ⟨h.requested.trans (k.floors _).symm, h.asked.trans (k.grants.floorAsked _).symm⟩

/-- The taking of changed grants requests for those groups alone, each its floor. -/
theorem State.takeGrants_requests {before : State} {q : LightRequest} (h : q ∈ (s.takeGrants before).2) :
    (before.budget.groups.get q.group).level ≠ (s.budget.groups.get q.group).level ∧ q.floor = s.floorAsked q.group := by
  have once : (grantsChanged before s).Nodup := (List.nodup_finRange 24).filter _
  have standing : s.takeGrants before
      = s.groupsDo (grantsChanged before s) fun _ g x => x.takeGrant (s.budget.groups.get g).level :=
    foldl_eq_foldl (fun h : Handed => h.1.budget = s.budget) _ _
      (fun b g kept => by dsimp only [Handed.group]; rw [kept])
      (fun b g kept => by unfold Handed.group; dsimp only; rw [State.putGroup_state]; exact kept) _ _ rfl
  rw [standing, State.groupsDo_each _ (fun g x => x.takeGrant (s.budget.groups.get g).level) s (fun _ _ _ _ _ => rfl) _ once,
    List.mem_filterMap] at h
  obtain ⟨g, changed, handed⟩ := h
  unfold Group.handed at handed
  split at handed
  · exact absurd handed (by simp)
  · obtain rfl := (Option.some.inj handed).symm
    refine ⟨of_decide_eq_true (List.mem_filter.mp changed).2, ?_⟩
    unfold State.floorAsked
    rw [Group.requestNow_floor, Group.requestNow_floor, (Group.takeGrant_kept _ _).state]

/-! ### The exchange after such requests (R124, R139, R140) -/

/-- Steps 1 to 4 of R124 for a group granted at least the floor named: the level falls first, and rises only as the headroom
allows. -/
theorem State.applyRequest_calm (h : s.Calm) {q : LightRequest}
    (same : q.floor = (s.budget.groups.get q.group).floorRequest) : (s.applyRequest q).Calm := by
  have within := h.within
  have covered := h.covered q.group
  rw [← same] at covered
  unfold State.applyRequest; dsimp only
  generalize s.budget.groups.get q.group = x at same covered ⊢
  generalize s.budget.ratings.groups.get q.group = rating
  have low : max (min x.level (max q.floor q.level)) q.floor ≤ x.level := by omega
  have least : q.floor ≤ max (min x.level (max q.floor q.level)) q.floor := Nat.le_max_right _ _
  have most : max (min x.level (max q.floor q.level)) q.floor ≤ max q.floor q.level := by omega
  generalize max (min x.level (max q.floor q.level)) q.floor = fallen at low least most ⊢
  have fell := draw_le_draw rating low
  obtain ⟨rises, -⟩ := raisedLevel_between rating fallen (max q.floor q.level)
    ((s.budget.capInForce : Int) - (s.budget.total + draw rating fallen - draw rating x.level : Nat)) most
  have room := raisedLevel_fits rating fallen (max q.floor q.level)
    ((s.budget.capInForce : Int) - (s.budget.total + draw rating fallen - draw rating x.level : Nat))
  generalize raisedLevel rating fallen (max q.floor q.level)
    ((s.budget.capInForce : Int) - (s.budget.total + draw rating fallen - draw rating x.level : Nat)) = level at rises room ⊢
  refine ⟨?_, fun g => ?_⟩
  · show s.budget.total + draw rating fallen - draw rating x.level + draw rating level - draw rating fallen
      ≤ max s.budget.capInForce (s.budget.reserved + draw rating q.floor - draw rating x.floorRequest)
    rw [← same]
    rcases room with rfl | room <;> omega
  · show (((s.budget.groups.set q.group ⟨level, q.floor, max q.floor q.level⟩).get g).floorRequest
      ≤ ((s.budget.groups.set q.group ⟨level, q.floor, max q.floor q.level⟩).get g).level)
    rw [Table.get_set]
    split
    · exact least.trans rises
    · exact h.covered g

theorem State.applyRequest_quietly (s : State) {q : LightRequest}
    (same : q.floor = (s.budget.groups.get q.group).floorRequest) : s.Quietly (s.applyRequest q) := by
  have grants := s.grantsOnly_applyRequest q
  unfold State.applyRequest at grants ⊢; dsimp only at grants ⊢
  refine ⟨grants, rfl, rfl, rfl, ?_, fun g => ?_, fun _ => id⟩
  · show s.budget.reserved + draw _ q.floor - draw _ (s.budget.groups.get q.group).floorRequest = s.budget.reserved
    rw [same, Nat.add_sub_cancel]
  · refine (congrArg GroupGrant.floorRequest (Table.get_set _ _ _ _)).trans ?_
    split
    · next mine => exact mine ▸ same
    · rfl

theorem State.applyRequest_others (s : State) (q : LightRequest) {g : Fin 24} (h : q.group ≠ g) :
    (s.applyRequest q).budget.groups.get g = s.budget.groups.get g := Table.get_set_other _ _ _ _ h

/-- Such a request raises no flag and starts no pass. -/
theorem State.lightRequest_calm (h : s.Calm) {q : LightRequest}
    (same : q.floor = (s.budget.groups.get q.group).floorRequest) :
    s.lightRequest q = if max q.floor q.level < (s.budget.groups.get q.group).level then (s.applyRequest q).retryCurtains
      else s.applyRequest q := by
  have covered := h.covered q.group
  have drawn := (State.applyRequest_calm h same).not_overdrawn
  unfold State.lightRequest; dsimp only
  generalize s.applyRequest q = t at drawn ⊢
  have unraised (p : Prop) [Decidable p] : t.raiseIf (decide ((((s.budget.groups.get q.group).floorRequest < q.floor
      ∨ (s.budget.groups.get q.group).level < q.floor) ∧ p))) .overcap = t := by
    have kept : ¬ (((s.budget.groups.get q.group).floorRequest < q.floor
      ∨ (s.budget.groups.get q.group).level < q.floor) ∧ p) := by omega
    rw [decide_eq_false kept]
    rfl
  rw [unraised, drawn]
  rfl

theorem State.lightRequest_quietly (h : s.Calm) {q : LightRequest}
    (same : q.floor = (s.budget.groups.get q.group).floorRequest) : s.Quietly (s.lightRequest q) ∧ (s.lightRequest q).Calm
      ∧ ∀ g, q.group ≠ g → ((s.lightRequest q).budget.groups.get g) = s.budget.groups.get g := by
  have calm := State.applyRequest_calm h same
  have applied := s.applyRequest_quietly same
  have others := fun g => s.applyRequest_others q (g := g)
  rw [State.lightRequest_calm h same]
  generalize s.applyRequest q = t at calm applied others
  split
  · have only := t.curtainsOnly_retryCurtains
    have retried := t.retryCurtains_quietly
    have settled := State.retryCurtains_calm calm
    generalize t.retryCurtains = u at only retried settled
    have groups : u.budget.groups = t.budget.groups := by rw [only]
    exact ⟨applied.trans retried, settled, fun g hg => by rw [groups]; exact others g hg⟩
  · exact ⟨applied, calm, others⟩

/-- What serving such requests makes of a state and the requests handed on. -/
structure Handed.Quietly (s : State) (h : Handed) : Prop where
  moves    : s.Quietly h.1
  calm     : h.1.Calm
  requests : ∀ q ∈ h.2, q.SameFloor h.1

theorem Handed.Quietly.serve {h : Handed} {q : LightRequest} (k : h.Quietly s) (same : q.SameFloor h.1) :
    (h.serve q).Quietly s := by
  obtain ⟨requested, calm, others⟩ := State.lightRequest_quietly k.calm same.requested
  unfold Handed.serve; dsimp only
  generalize h.1.lightRequest q = t at requested calm others
  have handed : ∀ p ∈ (t.takeGrants h.1).2, p.SameFloor (t.takeGrants h.1).1 := by
    intro p hp
    obtain ⟨changed, floor⟩ := State.takeGrants_requests hp
    have mine : q.group = p.group := by
      by_contra other
      exact changed (by rw [others p.group other])
    have again : q.SameFloor t := same.quietly requested
    refine LightRequest.SameFloor.quietly ⟨?_, floor⟩ (t.takeGrants_quietly h.1)
    rw [floor, ← mine]
    exact again.asked.symm.trans again.requested
  have taken := requested.trans (t.takeGrants_quietly h.1)
  refine ⟨k.moves.trans taken, State.takeGrants_calm calm h.1, fun p hp => ?_⟩
  rcases List.mem_append.mp hp with old | new
  · exact (k.requests p old).quietly taken
  · exact handed p new

theorem Handed.Quietly.serves (qs : List LightRequest) {h : Handed} (k : h.Quietly s) (same : ∀ q ∈ qs, q.SameFloor h.1) :
    (qs.foldl Handed.serve h).Quietly s := by
  induction qs generalizing s h with
  | nil => exact k
  | cons q qs ih =>
    have served := k.serve (same q List.mem_cons_self)
    have step : h.1.Quietly (h.serve q).1 :=
      (Handed.Quietly.serve ⟨.refl h.1, k.calm, k.requests⟩ (same q List.mem_cons_self)).moves
    exact ih served fun p hp => (same p (List.mem_cons_of_mem q hp)).quietly step

theorem State.exchange_quietly (n : Nat) {qs : List LightRequest} (calm : s.Calm) (same : ∀ q ∈ qs, q.SameFloor s) :
    s.Quietly (s.exchange n qs) ∧ (s.exchange n qs).Calm := by
  induction n generalizing s qs with
  | zero => exact ⟨.refl s, calm⟩
  | succ n ih =>
    unfold State.exchange
    split
    · exact ⟨.refl s, calm⟩
    · have served : (qs.foldl Handed.serve (s, [])).Quietly s :=
        Handed.Quietly.serves qs ⟨.refl s, calm, fun _ none => absurd none List.not_mem_nil⟩ same
      obtain ⟨moves, settled⟩ := ih served.calm served.requests
      exact ⟨served.moves.trans moves, settled⟩

/-- A pass whose grants bring no request with another floor: what follows it moves grants quietly (R121, R124, R140). -/
theorem State.passAndHand_quietly (s : State)
    (same : ∀ q ∈ (s.pass.takeGrants s).2, q.floor = (s.budget.groups.get q.group).floorRequest) :
    s.pass.Quietly s.passAndHand ∧ s.passAndHand.Calm := by
  have taken := s.pass.takeGrants_quietly s
  have calm := State.takeGrants_calm s.pass_calm s
  have requests : ∀ q ∈ (s.pass.takeGrants s).2, q.SameFloor (s.pass.takeGrants s).1 := by
    intro q hq
    obtain ⟨-, floor⟩ := State.takeGrants_requests hq
    refine LightRequest.SameFloor.quietly ⟨(same q hq).trans ?_, floor⟩ taken
    rw [s.pass_budget, s.passBudget_group]
  obtain ⟨moves, settled⟩ := State.exchange_quietly exchangeRounds calm requests
  exact ⟨taken.trans moves, settled⟩

end Sys2Proof.Machine
end

section
/-! SUPPORT. The control cycle as a whole: its inputs, its results, its set events with their causes, its mode events and its
demand set (R85, R88, R90, R91, R102, R104, R116). -/

namespace Sys2Proof.Machine

variable {s t u : State}

/-! ### Its inputs (R90) -/

theorem zoneInputsTaken_spec : Claims.ZoneInputsTaken := by
  intro s z i p hi hp
  subst hi hp
  have valued {r : Reading} {v : Nat} (h : r.value = some v) : r.value.getD 0 = v := by rw [h]; rfl
  exact ⟨rfl, rfl, rfl, rfl, rfl, rfl, rfl, rfl, rfl, s.trailerCount_eq z, s.forecastMark_iff z, rfl, rfl, rfl, rfl,
    fun _ => valued, fun _ => valued, fun _ => valued⟩

/-! ### Its set events (R85, R102) -/

theorem ZoneInputs.mode_degraded (i : ZoneInputs) {m : ZoneMode} (before : m ≠ .degraded) (after : i.mode m = .degraded) :
    m = .auto := by
  cases m with
  | auto => rfl
  | degraded => exact absurd rfl before
  | off | manual => exact absurd after (by simp [ZoneInputs.mode])

/-- Set events of one flag from several sources are one set event, where any source delivers it. -/
theorem State.foldl_raiseIf {β : Type} (f : Flag) (c : β → Bool) (l : List β) (s : State) :
    l.foldl (fun t b => t.raiseIf (c b) f) s = s.raiseIf (l.any c) f := by
  induction l generalizing s with
  | nil => rfl
  | cons b l ih =>
    rw [List.foldl_cons, ih, List.any_cons]
    cases c b with
    | false => rfl
    | true =>
      cases l.any c with
      | false => rfl
      | true => exact congrArg (fun i => ({ s with links := i } : State)) (s.links.raise_raise f)

/-! ### Its parts, in the order they go (R91) -/

/-- The results and counters replaced. -/
def State.cycleResults (s : State) : State := { s with climate := s.cycledClimate }

/-- ZONE_DEGRADED delivered where a zone entered DEGRADED (R85). -/
def State.cycleDegraded (s : State) : State :=
  if ∃ z, s.zoneMode z = .auto ∧ s.cycleResults.zoneMode z = .degraded then s.cycleResults.raise .zoneDegraded
  else s.cycleResults

/-- DEVIATION delivered where the deviation calls for it (R102). -/
def State.cycleReported (s : State) : State :=
  if s.climate.deviationLimit ≠ 0 ∧ s.climate.deviationLimit ≤ s.cycleResults.climate.deviation ∧ s.phase ≠ .setback
  then s.cycleDegraded.raise .deviation else s.cycleDegraded

/-- The mode event of each zone whose mode changed (R86). -/
def State.cycleModes (s : State) : State :=
  (indices 8).foldl (fun u z => if s.cycleResults.zoneMode z = s.zoneMode z then u else u.modeEvent z) s.cycleReported

/-- The demand set of the results in the allocator (R104, R114). -/
def State.cycleDemand (s : State) : State :=
  { s.cycleModes with budget := { s.cycleModes.budget with demand := some s.cycleResults.climate.demandSet } }

theorem State.cycleResults_mode (s : State) (z : Fin 8) : s.cycleResults.zoneMode z = (s.zoneInputs z).mode (s.zoneMode z) :=
  congrArg Zone.mode (Table.get_mapIdx _ _ _)

/-- A zone entered DEGRADED only from AUTO (R85). -/
theorem State.entered_degraded_iff (s : State) (z : Fin 8) :
    (s.cycleResults.zoneMode z == .degraded && s.zoneMode z != .degraded) = true
      ↔ s.zoneMode z = .auto ∧ s.cycleResults.zoneMode z = .degraded := by
  have mode := s.cycleResults_mode z
  rw [Bool.and_eq_true, beq_iff_eq, bne_iff_ne]
  constructor
  · rintro ⟨after, before⟩
    exact ⟨ZoneInputs.mode_degraded _ before (mode.symm.trans after), after⟩
  · rintro ⟨before, after⟩
    exact ⟨after, by rw [before]; decide⟩

theorem State.cycleDegraded_eq (s : State) :
    s.cycleResults.forEach 8 (fun z t => t.reportDegraded s z) = s.cycleDegraded := by
  have entered := s.entered_degraded_iff
  have reported : s.cycleResults.forEach 8 (fun z t => t.reportDegraded s z) = (indices 8).foldl
      (fun t z => t.raiseIf (s.cycleResults.zoneMode z == .degraded && s.zoneMode z != .degraded) .zoneDegraded)
      s.cycleResults :=
    foldl_eq_foldl (fun t : State => t.climate = s.cycleResults.climate) _ _
      (fun t z kept => by
        show t.reportDegraded s z = _
        unfold State.reportDegraded State.zoneMode
        rw [kept])
      (fun t z kept => by unfold State.raiseIf; split <;> exact kept) _ _ rfl
  rw [reported, State.foldl_raiseIf]
  unfold State.cycleDegraded State.raiseIf
  refine if_congr ?_ rfl rfl
  rw [List.any_eq_true]
  exact exists_congr fun z => (and_iff_right (List.mem_finRange z)).trans (entered z)

theorem State.cycleReported_eq (s : State) : s.cycleDegraded.reportDeviation = s.cycleReported := by
  have climate : s.cycleDegraded.climate = s.cycleResults.climate := by unfold State.cycleDegraded; split <;> rfl
  have calendar : s.cycleDegraded.calendar = s.calendar := by unfold State.cycleDegraded; split <;> rfl
  unfold State.cycleReported State.reportDeviation State.raiseIf State.phase
  rw [climate, calendar]
  refine if_congr ?_ rfl rfl
  rw [Bool.and_eq_true, Bool.and_eq_true, bne_iff_ne, decide_eq_true_iff, bne_iff_ne, and_assoc]
  rfl

theorem State.cycleReported_climate (s : State) : s.cycleReported.climate = s.cycledClimate := by
  unfold State.cycleReported State.cycleDegraded
  split <;> split <;> rfl

theorem State.modeEvent_climate (s : State) (z : Fin 8) : (s.modeEvent z).climate = s.climate := (s.modeEvent_moves z).climate

theorem State.cycleModes_eq (s : State) :
    s.cycleReported.forEach 8 (fun z t => if t.zoneMode z = s.zoneMode z then t else t.modeEvent z) = s.cycleModes :=
  foldl_eq_foldl (fun t : State => t.climate = s.cycleResults.climate) _ _
    (fun t z kept => by
      have mode : t.zoneMode z = s.cycleResults.zoneMode z := by unfold State.zoneMode; rw [kept]
      dsimp only
      rw [mode])
    (fun t z kept => by
      split
      · exact kept
      · exact (t.modeEvent_climate z).trans kept)
    _ _ s.cycleReported_climate

theorem State.cycleModes_stands (s : State) : s.cycleModes.climate = s.cycledClimate ∧ s.cycleModes.links = s.cycleReported.links := by
  refine foldl_keeps (fun t u : State => t.climate = s.cycledClimate ∧ t.links = s.cycleReported.links →
    u.climate = s.cycledClimate ∧ u.links = s.cycleReported.links) (fun _ => id) (fun first next kept => next (first kept))
    _ (fun t z kept => ?_) _ s.cycleReported ⟨s.cycleReported_climate, rfl⟩
  split
  · exact kept
  · exact ⟨(t.modeEvent_climate z).trans kept.1, (t.modeEvent_links z).trans kept.2⟩

/-- A control cycle: its parts, then the pass that its demand set starts. -/
theorem State.cycle_eq (s : State) : s.cycle = s.cycleDemand.passAndHand := by
  have demand : s.cycleModes.takeDemand s.cycleModes.climate.demandSet = s.cycleDemand.passAndHand := by
    rw [s.cycleModes_stands.1]
    rfl
  rw [← demand, ← s.cycleModes_eq, ← s.cycleReported_eq, ← s.cycleDegraded_eq]
  rfl

/-! ### The flags after it, each with its cause (R85, R102, R116, R166) -/

theorem State.isSet_raised {p : Prop} [Decidable p] {f g : Flag} (h : (if p then s.raise f else s).links.isSet g = true) :
    s.links.isSet g = true ∨ g = f ∧ p := by
  split at h
  · next holds =>
    have either := (s.links.isSet_raise f g).symm.trans h
    rw [Bool.or_eq_true, decide_eq_true_iff] at either
    exact either.imp id fun same => ⟨same.symm, holds⟩
  · exact .inl h

theorem State.raised_isSet {p : Prop} [Decidable p] {f : Flag} (h : p) : (if p then s.raise f else s).links.isSet f = true := by
  rw [if_pos h]
  exact (s.links.isSet_raise f f).trans (by simp)

theorem State.raised_keeps {p : Prop} [Decidable p] {f : Flag} : s.links.keepsFlags (if p then s.raise f else s).links := by
  split
  · exact (s.links.grows_raise f).flags
  · exact fun _ => id

theorem State.pass_links (s : State) : s.pass.links
    = if s.budget.capInForce < s.pass.budget.reserved then s.links.raise .overcap else s.links := by
  rw [s.pass_budget]
  unfold State.pass; dsimp only
  rw [followGrants_links]

/-- OVERCAP after a pass and its exchange comes of the pass itself or of a request with another floor (R116, R124). -/
theorem State.passAndHand_overcap {f : Flag} (clear : s.links.isSet f = false) (set : s.passAndHand.links.isSet f = true) :
    f = .overcap ∧ (s.budget.capInForce < s.pass.budget.reserved
      ∨ ∃ q ∈ (s.pass.takeGrants s).2, q.floor ≠ (s.budget.groups.get q.group).floorRequest) := by
  constructor
  · rcases s.passAndHand_raises with same | raised
    · rw [same, clear] at set
      exact absurd set Bool.false_ne_true
    · rw [raised, LinkInterface.isSet_raise, clear, Bool.false_or, decide_eq_true_iff] at set
      exact set.symm
  · by_contra uncaused
    obtain ⟨within, same⟩ := not_or.mp uncaused
    have quiet := (s.passAndHand_quietly fun q hq => by_contra fun other => same ⟨q, hq, other⟩).1
    have passed := s.pass_links
    rw [if_neg within] at passed
    rw [quiet.links, passed, clear] at set
    exact Bool.false_ne_true set

theorem State.cycleDemand_links (s : State) : s.cycleDemand.links = s.cycleReported.links := s.cycleModes_stands.2

/-- A flag clear before a cycle is set after it only with its cause. -/
theorem State.cycle_flags {f : Flag} (clear : s.links.isSet f = false) (set : s.cycle.links.isSet f = true) :
    f = .zoneDegraded ∧ (∃ z, s.zoneMode z = .auto ∧ s.cycleResults.zoneMode z = .degraded)
    ∨ f = .deviation ∧ s.climate.deviationLimit ≠ 0 ∧ s.climate.deviationLimit ≤ s.cycleResults.climate.deviation
      ∧ s.phase ≠ .setback
    ∨ f = .overcap ∧ (s.cycleDemand.budget.capInForce < s.cycleDemand.pass.budget.reserved
      ∨ ∃ q ∈ (s.cycleDemand.pass.takeGrants s.cycleDemand).2,
        q.floor ≠ (s.cycleDemand.budget.groups.get q.group).floorRequest) := by
  rw [s.cycle_eq] at set
  cases before : s.cycleDemand.links.isSet f with
  | false => exact .inr (.inr (State.passAndHand_overcap before set))
  | true =>
    rw [s.cycleDemand_links] at before
    rcases State.isSet_raised before with degraded | deviation
    · rcases State.isSet_raised degraded with already | entered
      · exact absurd (clear.symm.trans already) Bool.false_ne_true
      · exact .inl entered
    · exact .inr (.inl deviation)

theorem State.cycle_keepsFlags (s : State) : s.cycleReported.links.keepsFlags s.cycle.links := by
  rw [s.cycle_eq, ← s.cycleDemand_links]
  exact s.cycleDemand.grantsOnly_passAndHand.links.flags

/-! ### The cycle at its timer's expiry (R88) -/

theorem exec_cycleTimerExpiry (running : s.power = .running) (owed : .cycle ∈ s.owed)
    (due : s.climate.setting ≤ s.climate.timer) :
    exec .cycleTimerExpiry s = .next (State.cycle { s with owed := s.owed.erase .cycle }) := by
  have ending : s.cycleEnding = true := decide_eq_true due
  refine (State.run_running running _).trans ?_
  rw [ending, State.takeNamed_due owed]
  exact congrArg Host.Outcome.next (if_pos (Nat.succ_le_succ due))

theorem cycleRuns_spec : Claims.CycleRuns := by
  constructor
  · intro s running owed due
    refine ⟨_, exec_cycleTimerExpiry running owed due, ?_⟩
    generalize hw : ({ s with owed := s.owed.erase .cycle } : State) = w
    have inputs : w.zoneInputs = s.zoneInputs := by subst hw; rfl
    have cycled : w.cycledClimate = s.cycledClimate := by subst hw; rfl
    have mode : w.zoneMode = s.zoneMode := by subst hw; rfl
    have phase : w.phase = s.phase := by subst hw; rfl
    have climate : w.climate = s.climate := by subst hw; rfl
    have only := w.cycleOnly_cycle
    have cycles := w.cycle_spec
    have kept := w.cycle_keepsFlags
    have entered (z : Fin 8) := w.cycleResults_mode z
    generalize w.cycle = t at only cycles kept ⊢
    have whole : t.climate = s.cycledClimate := cycles.climate.trans cycled
    have zone (z : Fin 8) : t.climate.zones.get z = (s.climate.zones.get z).cycle (s.zoneInputs z) := by
      rw [whole]
      exact Table.get_mapIdx _ _ _
    refine ⟨only, whole, by rw [whole]; rfl, by rw [whole]; rfl, zone, ⟨_, cycles.demand, fun z => ?_⟩, ?_, ?_⟩
    · rw [cycled, ← whole]
      unfold Climate.demandSet
      rw [Table.get_map, zone z]
      rfl
    · rintro ⟨z, before, after⟩
      have after' : (w.cycleResults).zoneMode z = .degraded := by
        refine Eq.trans ?_ after
        exact congrArg (fun x : Climate => (x.zones.get z).mode) cycles.climate.symm
      have auto : w.zoneMode z = .auto :=
        ZoneInputs.mode_degraded _ (by rw [mode]; exact before) ((entered z).symm.trans after')
      exact kept _ (State.raised_keeps _ (State.raised_isSet ⟨z, auto, after'⟩))
    · intro limited reached busy
      refine kept _ (State.raised_isSet ⟨by rw [climate]; exact limited, ?_, by rw [phase]; exact busy⟩)
      rw [climate]
      exact reached.trans_eq (by rw [cycles.climate]; rfl)
  · intro s a b c m v t running owed due ha hb hc hm hv ht
    rw [exec_cycleTimerExpiry running owed due]
    generalize hw : ({ s with owed := s.owed.erase .cycle } : State) = w
    have ha' : a = w.cycleResults := by rw [ha, ← hw]; rfl
    have hb' : b = w.cycleDegraded := by rw [hb, ha', ← hw]; rfl
    have hc' : c = w.cycleReported := by rw [hc, hb', ha', ← hw]; rfl
    have hm' : m = w.cycleModes := by rw [hm, hc', ha', ← hw]; rfl
    have hv' : v = w.cycleDemand := by rw [hv, hm', ha']; rfl
    have ht' : t = w.cycle := by rw [ht, hv', w.cycle_eq]
    refine ⟨congrArg _ ht'.symm, fun f clear set => ?_⟩
    have results : t.climate = w.cycleResults.climate := by rw [ht']; exact w.cycle_spec.climate
    have mode (z : Fin 8) : t.zoneMode z = w.cycleResults.zoneMode z :=
      congrArg (fun x : Climate => (x.zones.get z).mode) results
    have caused := State.cycle_flags (s := w) (by rw [← hw]; exact clear) (by rw [← ht']; exact set)
    rw [← hv', ← results] at caused
    simp only [← mode] at caused
    rw [← hw] at caused
    exact caused

/-- Settles O43. -/
theorem cycleTimerExpiry : Obligations.CycleTimerExpiry := ⟨cycleRuns_spec, zoneInputsTaken_spec⟩

end Sys2Proof.Machine
end

section
/-! SUPPORT. The Sensor Bus Master's readings, ages and polls: the conversion of a reading (R73), a node compared with the
limits (R74, R75), the outcome of a poll (R70, R72) and the rounds of polls (R71, R76). -/

namespace Sys2Proof.Machine

variable {s : State} {n : Fin 16} {x : Node}

/-! ### Readings converted (R73) -/

theorem convertReading_temp (v : Half) : (convertReading .temp v : Int) = max 0 (min 255 ((v.toInt + 402) / 5)) :=
  Int.toNat_of_nonneg (le_max_left _ _)

/-- Settles O36. -/
theorem readingsConverted : Obligations.ReadingsConverted :=
  ⟨fun v => ⟨convertReading_temp v, rfl, rfl, rfl⟩, by decide⟩

/-! ### A node compared with the limits (R74, R75) -/

/-- A node as a comparison with the limits leaves it. -/
def Node.compared (x : Node) (stale degrade : Nat) : Node :=
  if x.config.configured then { x with status := agedStatus stale degrade x.status x.age } else x

/-- A comparison with the limits turns the node LOST. -/
def Node.turnsLost (x : Node) (stale degrade : Nat) : Bool :=
  (x.compared stale degrade).status == .lost && x.status != .lost

theorem Node.compared_configured (yes : x.config.configured = true) (stale degrade : Nat) :
    x.compared stale degrade = { x with status := agedStatus stale degrade x.status x.age } := if_pos yes

theorem Node.compared_unconfigured (no : ¬ x.config.configured = true) (stale degrade : Nat) :
    x.compared stale degrade = x := if_neg no

theorem Node.turnsLost_iff (stale degrade : Nat) :
    x.turnsLost stale degrade = true ↔ (x.compared stale degrade).status = .lost ∧ x.status ≠ .lost := by
  simp [Node.turnsLost]

theorem Node.older_configured (yes : x.config.configured = true) : x.older = { x with age := min 65535 (x.age + 1) } :=
  if_pos yes

theorem State.setNode_setNode (s : State) (n : Fin 16) (x y : Node) : (s.setNode n x).setNode n y = s.setNode n y := by
  unfold State.setNode
  dsimp only
  rw [Table.set_set]

theorem State.setNode_get (s : State) (n : Fin 16) : s.setNode n (s.sensors.nodes.get n) = s := by
  unfold State.setNode
  rw [Table.set_get]

/-- A comparison writes one node, and delivers SENSOR_LOST where that node turns LOST. -/
theorem State.compareNode_eq (s : State) (n : Fin 16) :
    s.compareNode n = (s.setNode n ((s.sensors.nodes.get n).compared s.sensors.stale s.sensors.degrade)).raiseIf
      ((s.sensors.nodes.get n).turnsLost s.sensors.stale s.sensors.degrade) .sensorLost := by
  unfold State.compareNode Node.turnsLost
  dsimp only
  split
  · next yes => rw [Node.compared_configured yes]
  · next no =>
    have stays : ((s.sensors.nodes.get n).status == .lost && (s.sensors.nodes.get n).status != .lost) = false :=
      Bool.and_not_self _
    rw [Node.compared_unconfigured no, State.setNode_get, stays]
    rfl

theorem State.compareNode_setNode (s : State) (n : Fin 16) (x : Node) :
    (s.setNode n x).compareNode n = (s.setNode n (x.compared s.sensors.stale s.sensors.degrade)).raiseIf
      (x.turnsLost s.sensors.stale s.sensors.degrade) .sensorLost := by
  have row : (s.setNode n x).sensors.nodes.get n = x := Table.get_set_same _ _ _
  rw [State.compareNode_eq, row, State.setNode_setNode]
  rfl

/-! ### NODE_HELD and NODE_LOST (R74, R75) -/

theorem agedStatus_held {stale degrade age : Nat} {st : NodeStatus} (before : st = .fresh ∨ st = .suspect)
    (reached : stale ≤ age) (below : age < degrade) : agedStatus stale degrade st age = .held := by
  rcases before with rfl | rfl <;> simp only [agedStatus] <;> rw [if_neg (Nat.not_le.mpr below), if_pos reached]

theorem agedStatus_lost {stale degrade age : Nat} {st : NodeStatus} (before : st = .fresh ∨ st = .suspect ∨ st = .held)
    (reached : degrade ≤ age) : agedStatus stale degrade st age = .lost := by
  rcases before with rfl | rfl | rfl <;> exact if_pos reached

/-- The owed second boundary of a configured node at which its status becomes `st`, taken by the row that names it. -/
theorem State.takeNamed_node {age : Nat} {st : NodeStatus} (owed : .node n ∈ s.owed) (hx : x = s.sensors.nodes.get n)
    (yes : x.config.configured = true) (hage : age = min 65535 (x.age + 1))
    (aged : agedStatus s.sensors.stale s.sensors.degrade x.status age = st) (turns : x.status ≠ st) :
    s.takeNamed (.node n) (s.nodeNext n == st && (s.sensors.nodes.get n).status != st)
      = (State.setNode { s with owed := s.owed.erase (.node n) } n { x with age := age, status := st }).raiseIf
          (st == .lost) .sensorLost := by
  have older : x.older = { x with age := age } := by rw [Node.older_configured yes, hage]
  have compared : x.older.compared s.sensors.stale s.sensors.degrade = { x with age := age, status := st } := by
    rw [older, Node.compared_configured (x := { x with age := age }) yes, aged]
  have next : s.nodeNext n = st := by
    unfold State.nodeNext
    dsimp only
    rw [← hx, older, ← aged]
    exact if_pos yes
  have lost : x.older.turnsLost s.sensors.stale s.sensors.degrade = (st == .lost) := by
    unfold Node.turnsLost
    rw [compared, older]
    exact Bool.and_eq_left_iff_imp.mpr fun lost => bne_iff_ne.mpr (eq_of_beq lost ▸ turns)
  have due : (s.nodeNext n == st && (s.sensors.nodes.get n).status != st) = true := by
    rw [next, ← hx]
    simpa using turns
  rw [due, State.takeNamed_due owed]
  refine (State.compareNode_setNode { s with owed := s.owed.erase (.node n) } n (s.sensors.nodes.get n).older).trans ?_
  rw [← hx]
  show State.raiseIf (State.setNode _ n (x.older.compared s.sensors.stale s.sensors.degrade))
    (x.older.turnsLost s.sensors.stale s.sensors.degrade) .sensorLost = _
  rw [compared, lost]

/-- Settles O37: each row takes the owed second boundary, whose comparison brings HELD or LOST. -/
theorem nodesGrowStale : Obligations.NodesGrowStale := by
  intro s n x age running owed hx yes hage
  refine ⟨fun before reached below => ?_, fun before reached => ?_⟩
  · refine (State.run_running running _).trans (congrArg Host.Outcome.next ?_)
    exact State.takeNamed_node owed hx yes hage (agedStatus_held before reached below) fun held => by simp [held] at before
  · refine (State.run_running running _).trans (congrArg Host.Outcome.next ?_)
    exact State.takeNamed_node owed hx yes hage (agedStatus_lost before reached) fun lost => by simp [lost] at before

/-! ### The round of polls (R71, R76) -/

theorem Sensors.configuredFrom_eq_some {m : Sensors} {start : Nat} (above : start ≤ n.val)
    (yes : (m.nodes.get n).config.configured = true)
    (least : ∀ k : Fin 16, start ≤ k.val → k < n → (m.nodes.get k).config.configured = false) :
    m.configuredFrom start = some n := by
  refine List.find?_eq_some_iff_getElem.mpr ⟨by simp [above, yes], n.val, by simp [indices], by simp [indices], ?_⟩
  intro j before
  by_cases h : start ≤ j
  · simp [indices, least ⟨j, by omega⟩ h before]
  · simp [indices, h]

theorem Sensors.configuredFrom_eq_none {m : Sensors} {start : Nat} :
    m.configuredFrom start = none ↔ ∀ k : Fin 16, start ≤ k.val → (m.nodes.get k).config.configured = false := by
  simp [Sensors.configuredFrom, List.find?_eq_none, mem_indices]

theorem State.pollAfter_next {m : Fin 16} (h : s.sensors.configuredFrom (n.val + 1) = some m) :
    s.pollAfter n = { s with sensors := { s.sensors with polled := some m } } := by
  unfold State.pollAfter
  rw [h]

/-- A round complete: BUS_SILENT where no good reply came, and a new round. -/
theorem State.pollAfter_round (h : s.sensors.configuredFrom (n.val + 1) = none) :
    s.pollAfter n = { s with
      sensors := { s.sensors with polled := s.sensors.configuredFrom 0, roundMark := false }
      links := if s.sensors.roundMark = true then s.links else s.links.raise .busSilent } := by
  unfold State.pollAfter
  rw [h]
  dsimp only
  cases s.sensors.roundMark <;> rfl

theorem roundsOfPolls_spec : Claims.RoundsOfPolls := by
  refine fun s n => ⟨fun m above yes least => State.pollAfter_next (Sensors.configuredFrom_eq_some above yes least),
    fun noneAbove => ?_⟩
  have round := State.pollAfter_round (Sensors.configuredFrom_eq_none.mpr noneAbove)
  rw [round]
  refine ⟨fun m yes least => ?_, rfl, rfl, fun silent => ?_, fun marked => if_pos marked⟩
  · have lowest : s.sensors.configuredFrom 0 = some m :=
      Sensors.configuredFrom_eq_some (Nat.zero_le _) yes fun k _ => least k
    rw [lowest]
    exact ⟨rfl, rfl⟩
  · simp [silent, LinkInterface.isSet_raise]

/-! ### The outcome of a poll (R70, R72) -/

theorem Node.repliedBy_eq (x : Node) (n : Fin 16) (r : ReplyFrame) :
    x.repliedBy n r = (r.address.toNat == n.val + 1 && r.type == typeCode x.config.type) := by
  have named : (r.address == address n) = (r.address.toNat == n.val + 1) := by
    rw [Bool.eq_iff_iff, beq_iff_eq, beq_iff_eq, ← BitVec.toNat_inj, address, BitVec.toNat_ofNat,
      Nat.mod_eq_of_lt (by omega)]
  rw [Node.repliedBy, named]

/-- The table of R72: `fits` says that address and type match the record, `right` that the check is right. -/
theorem Node.judge_eq {r : ReplyFrame} {right : Bool} (x : Node) (fits : Bool) (h : right = checkRight r) :
    x.judge r fits =
      if fits = true ∧ right = true then
        { x with value := some (convertReading x.config.type r.value), status := .fresh, age := 0, failures := 0 }
      else if fits = true ∧ x.config.filter = .accept then
        { x with value := some (convertReading x.config.type r.value), status := .suspect, age := 0
                 failures := min 255 (x.failures + 1) }
      else { x with failures := min 255 (x.failures + 1) } := by
  unfold Node.judge
  rw [← h]
  cases fits with
  | false => rfl
  | true => cases right with
    | true => rfl
    | false => cases x.config.filter <;> rfl

theorem pollOutcomes_spec : Claims.PollOutcomes := by
  refine ⟨fun s r n x y fits right running polled hx hfits hright hy => ?_, fun s n x running polled hx => ?_,
    fun s r running idle => ⟨?_, ?_⟩⟩
  · have judged : x.judge r (x.repliedBy n r) = y := by
      rw [Node.repliedBy_eq, ← hfits, Node.judge_eq x fits hright, hy]
    refine (State.run_running running _).trans (congrArg Host.Outcome.next ?_)
    unfold State.takeReply
    rw [polled]
    dsimp only
    rw [← hx, judged, Node.repliedBy_eq, ← hfits, show checkRight r = right from hright.symm]
    rfl
  · refine (State.run_running running _).trans (congrArg Host.Outcome.next ?_)
    unfold State.endWait
    rw [polled, hx]
    rfl
  · refine (State.run_running running _).trans (congrArg Host.Outcome.next ?_)
    unfold State.takeReply
    rw [idle]
  · refine (State.run_running running _).trans (congrArg Host.Outcome.next ?_)
    unfold State.endWait
    rw [idle]

/-- Settles O35. -/
theorem pollsAndRounds : Obligations.PollsAndRounds := ⟨pollOutcomes_spec, roundsOfPolls_spec⟩

end Sys2Proof.Machine
end

section
/-! SUPPORT. NODE_CONFIG and NODE_READ, and the polling after a change of a node's configuration (R68, R69, R71). -/

namespace Sys2Proof.Machine

variable {s : State} {o : Origin} {n : Fin 16} {x : Node}

/-! ### Bus addresses that name nodes -/

theorem nodeRow_of_val {b : Byte} (h : b.toNat = n.val + 1) : nodeRow b = some n := by
  unfold nodeRow
  rw [dif_pos (by omega)]
  exact congrArg some (Fin.ext (by simp [h]))

theorem nodeRow_eq_some_iff {b : Byte} : nodeRow b = some n ↔ b.toNat = n.val + 1 := by
  refine ⟨fun h => ?_, nodeRow_of_val⟩
  unfold nodeRow at h
  split at h
  · cases h; dsimp only; omega
  · cases h

theorem nodeRow_outside {b : Byte} (h : b.toNat = 0 ∨ 16 < b.toNat) : nodeRow b = none := dif_neg (by omega)

/-! ### The node NODE_CONFIG writes (R68) -/

/-- A configuration with the fields that NODE_CONFIG names written. -/
def writtenNodeConfig (a : NodeConfigArgs) (c : NodeConfig) : NodeConfig :=
  ⟨a.configured.getD c.configured, (a.type.bind id).getD c.type, (a.filter.bind id).getD c.filter⟩

/-- The node becomes configured, becomes unconfigured or changes its type. -/
def Node.startsAfresh (x : Node) (c : NodeConfig) : Bool :=
  c.configured != x.config.configured || (c.configured && c.type != x.config.type)

/-- A node with a configuration stored, initialised where it starts afresh. -/
def Node.reconfigured (x : Node) (c : NodeConfig) : Node :=
  if x.startsAfresh c then Node.initial c else { x with config := c }

/-- A node that an entry of another type names. -/
theorem SourceMap.namesOf_mistyped (m : SourceMap) (n : Fin 16) (t : NodeType) :
    ((m.namesOf n).any fun e => e.type != t) = true ↔
      (t ≠ .temp ∧ ∃ z, m.temperature.get z = some n) ∨ (t ≠ .gas ∧ ∃ z, m.gas.get z = some n)
        ∨ (t ≠ .outdoor ∧ m.outdoor = some n) ∨ (t ≠ .daylight ∧ m.daylight = some n) := by
  have single (p : Prop) [Decidable p] (e : SourceName) :
      ((if p then [e] else []).any fun e => e.type != t) = true ↔ t ≠ e.type ∧ p := by
    split <;> simp [*, eq_comm (a := t)]
  have listed (p : Fin 8 → Prop) [DecidablePred p] (f : Fin 8 → SourceName) (u : NodeType) (hf : ∀ z, (f z).type = u) :
      ((((indices 8).filter fun z => p z).map f).any fun e => e.type != t) = true ↔ t ≠ u ∧ ∃ z, p z := by
    simp only [List.any_map, List.any_filter, List.any_eq_true, mem_indices, Function.comp_apply, hf, Bool.and_eq_true,
      decide_eq_true_eq, bne_iff_ne, true_and, ne_comm (a := u), exists_and_right, and_comm (a := t ≠ u)]
  unfold SourceMap.namesOf
  rw [List.any_append, List.any_append, List.any_append, Bool.or_eq_true, Bool.or_eq_true, Bool.or_eq_true, single, single,
    listed _ .temperature .temp fun _ => rfl, listed _ .gas .gas fun _ => rfl, or_assoc, or_assoc]
  rfl

theorem ownNodeConfig_eq {a : NodeConfigArgs} {c : NodeConfig} (hn : a.node.toNat = n.val + 1) (ht : a.type ≠ some none)
    (hf : a.filter ≠ some none) (hx : x = s.sensors.nodes.get n) (hc : c = writtenNodeConfig a x.config) :
    ownNodeConfig a s =
      if (c.configured && (s.sensors.map.namesOf n).any fun e => e.type != c.type) = true then .turnedAway s .active
      else
        { state := (s.setNode n (x.reconfigured c)).repoll n (x.startsAfresh c)
          reply := ⟨.ok, .node (x.reconfigured c)⟩ } := by
  subst hx hc
  unfold ownNodeConfig
  rw [nodeRow_of_val hn]
  split
  · next unknown => cases unknown
  · next unknown _ => exact absurd unknown ht
  · next unknown _ _ => exact absurd unknown hf
  · next named _ _ => cases named; rfl

theorem ownNodeConfig_range {a : NodeConfigArgs}
    (h : a.node.toNat = 0 ∨ 16 < a.node.toNat ∨ a.type = some none ∨ a.filter = some none) :
    ownNodeConfig a s = .turnedAway s .range := by
  unfold ownNodeConfig
  split
  · rfl
  · rfl
  · rfl
  · next hn ht hf =>
    rcases h with h | h | h | h
    · cases (nodeRow_outside (.inl h)).symm.trans hn
    · cases (nodeRow_outside (.inr h)).symm.trans hn
    · exact absurd h ht
    · exact absurd h hf

/-! ### The polling after NODE_CONFIG (R71) -/

theorem State.repoll_idle (h : s.sensors.polled = none) (b : Bool) : s.repoll n b = s.startRound := by
  unfold State.repoll
  rw [h]

theorem State.repoll_stands {m : Fin 16} {b : Bool} (h : s.sensors.polled = some m) (other : ¬ (m = n ∧ b = true)) :
    s.repoll n b = s := by
  unfold State.repoll
  rw [h]
  exact if_neg other

theorem State.repoll_abandoned (h : s.sensors.polled = some n) :
    s.repoll n true = if (∀ k, (s.sensors.nodes.get k).config.configured = false)
      then { s with sensors := { s.sensors with polled := none } } else s.pollAfter n := by
  unfold State.repoll
  rw [h]
  dsimp only
  rw [if_pos ⟨rfl, rfl⟩]
  have none_iff := Sensors.configuredFrom_eq_none (m := s.sensors) (start := 0)
  split
  · next idle => rw [if_pos fun k => none_iff.mp idle k (Nat.zero_le _)]
  · next lowest => rw [if_neg fun all => by cases (none_iff.mpr fun k _ => all k).symm.trans lowest]

/-- NODE_CONFIG of a node, type and filter in range. -/
theorem nodeConfig_inRange {u : State} {a : NodeConfigArgs} {y : Node} {c : NodeConfig} {afresh : Bool}
    (h : s.Admits .nodeConfig o) (hn : a.node.toNat = n.val + 1) (ht : a.type ≠ some none) (hf : a.filter ≠ some none)
    (hx : x = s.sensors.nodes.get n) (hc : c = writtenNodeConfig a x.config) (hafresh : afresh = x.startsAfresh c)
    (hy : y = x.reconfigured c) (hu : u = s.setNode n y) :
    ((c.configured && (s.sensors.map.namesOf n).any fun e => e.type != c.type) = true →
      exec (.nodeConfig o (some a)) s = .next (s.answered .nodeConfig o ⟨.active, .bare⟩))
    ∧ (¬ (c.configured && (s.sensors.map.namesOf n).any fun e => e.type != c.type) = true →
      exec (.nodeConfig o (some a)) s
        = .next (((u.setReceiver o.link .hunting).repoll n afresh).answer .nodeConfig o ⟨.ok, .node y⟩)) := by
  have own := ownNodeConfig_eq (s := s.setReceiver o.link .hunting) hn ht hf hx hc
  subst hafresh hy hu
  refine ⟨fun active => State.runCall_turnedAway h (own.trans (if_pos active)), fun free => ?_⟩
  refine (State.runCall_taken h a _).trans ?_
  rw [own.trans (if_neg free)]
  rfl

/-- Settles O34. -/
theorem nodeCalls : Obligations.NodeCalls := by
  refine ⟨fun s u o a n x y c afresh h hn ht hf hx hc hafresh hy hu => ?_,
    fun s o a h hr => State.runCall_turnedAway h (ownNodeConfig_range hr),
    fun s o a h => ⟨fun n hn => State.runCall_answers h s ?_, fun hr => State.runCall_turnedAway h ?_⟩,
    fun s => ⟨fun m yes least => ?_, fun unconfigured => ?_⟩⟩
  · have stored : y = x.reconfigured c := by rw [hy, hafresh]; rfl
    obtain ⟨active, free⟩ := nodeConfig_inRange h hn ht hf hx hc hafresh stored hu
    rw [Bool.and_eq_true, SourceMap.namesOf_mistyped] at active free
    have polling : u.sensors.polled = s.sensors.polled := by rw [hu]; rfl
    split
    · next mistyped => exact active mistyped
    · next fits =>
      rw [free fits]
      cases polled : s.sensors.polled with
      | none =>
        rw [State.repoll_idle (s := u.setReceiver o.link .hunting) (polling.trans polled)]
        exact congrArg _ (State.answer_eq u.startRound _ _ _)
      | some m =>
        dsimp only
        split
        · next own =>
          obtain ⟨rfl, started⟩ := own
          rw [started, State.repoll_abandoned (s := u.setReceiver o.link .hunting) (polling.trans polled),
            setReceiver_sensors]
          split
          · exact congrArg _ (State.answer_eq { u with sensors := { u.sensors with polled := none } } _ _ _)
          · rfl
        · next other =>
          rw [State.repoll_stands (s := u.setReceiver o.link .hunting) (polling.trans polled) other]
          exact congrArg _ (State.answer_eq u _ _ _)
  · unfold ownNodeRead
    rw [nodeRow_of_val hn]
    rfl
  · unfold ownNodeRead
    rw [nodeRow_outside hr]
  · unfold State.startRound
    rw [Sensors.configuredFrom_eq_some (Nat.zero_le _) yes fun k _ => least k]
  · unfold State.startRound
    rw [Sensors.configuredFrom_eq_none.mpr fun k _ => unconfigured k]

end Sys2Proof.Machine
end

section
/-! SUPPORT. SOURCE_MAP_WRITE (R78, R79): which items it takes, one entry written, and the map after every item. -/

namespace Sys2Proof.Machine

variable {m : Sensors} {map : SourceMap} {i : SourceItem}

/-! ### The source map read and written by entry (R78) -/

/-- The node an entry of the source map holds; an entry that does not exist holds none. -/
def SourceMap.nodeAt (map : SourceMap) : SourceEntry → Option (Fin 16)
  | .temperature b => (row 8 b).bind map.temperature.get
  | .gas b => (row 8 b).bind map.gas.get
  | .outdoor => map.outdoor
  | .daylight => map.daylight
  | .noSuchEntry => none

/-- A source map with one entry written; none for an entry that does not exist. -/
def SourceMap.tryPut (map : SourceMap) (node : Option (Fin 16)) : SourceEntry → Option SourceMap
  | .temperature b => (row 8 b).map fun z => { map with temperature := map.temperature.set z node }
  | .gas b => (row 8 b).map fun z => { map with gas := map.gas.set z node }
  | .outdoor => some { map with outdoor := node }
  | .daylight => some { map with daylight := node }
  | .noSuchEntry => none

/-- A source map with one entry written; an entry that does not exist changes nothing. -/
def SourceMap.put (map : SourceMap) (node : Option (Fin 16)) (e : SourceEntry) : SourceMap := (map.tryPut node e).getD map

/-- The entries of the table of R78. -/
def EntryStands (e : SourceEntry) : Prop :=
  e ≠ .noSuchEntry ∧ ∀ z, e = .temperature z ∨ e = .gas z → z.toNat ≤ 7

theorem row_eq_some_iff {k : Nat} {b : Byte} {z : Fin k} : row k b = some z ↔ b.toNat = z.val := by
  refine ⟨fun h => ?_, row_of_val⟩
  unfold row at h
  split at h
  · exact congrArg Fin.val (Option.some.inj h)
  · cases h

theorem row_ofNat (z : Fin 8) : row 8 (BitVec.ofNat 8 z.val) = some z :=
  row_of_val (by rw [BitVec.toNat_ofNat]; omega)

theorem SourceMap.nodeAt_temperature (map : SourceMap) (z : Fin 8) :
    map.nodeAt (.temperature (BitVec.ofNat 8 z.val)) = map.temperature.get z := by
  simp [SourceMap.nodeAt, row_ofNat]

theorem SourceMap.nodeAt_gas (map : SourceMap) (z : Fin 8) : map.nodeAt (.gas (BitVec.ofNat 8 z.val)) = map.gas.get z := by
  simp [SourceMap.nodeAt, row_ofNat]

/-- A byte that names a row read after the row that `b` names is written. -/
theorem row_bind_set {t : Table 8 (Option (Fin 16))} {b : Byte} {z : Fin 8} (h : row 8 b = some z)
    (node : Option (Fin 16)) (c : Byte) :
    (row 8 c).bind (t.set z node).get = if b = c then node else (row 8 c).bind t.get := by
  split
  · next same => subst same; simp [h]
  · next other =>
    cases hc : row 8 c with
    | none => rfl
    | some y =>
      have apart : z ≠ y := fun e => other (BitVec.eq_of_toNat_eq (by rw [row_eq_some_iff.mp h, row_eq_some_iff.mp hc, e]))
      simp [apart]

theorem row_isSome_iff (b : Byte) : (row 8 b).isSome = true ↔ b.toNat ≤ 7 := by
  unfold row
  split <;> simp <;> omega

theorem SourceMap.tryPut_isSome_iff (map : SourceMap) (node : Option (Fin 16)) (e : SourceEntry) :
    (map.tryPut node e).isSome = true ↔ EntryStands e := by
  cases e <;> simp [SourceMap.tryPut, EntryStands, row_isSome_iff]

/-- Reading an entry after an entry of the table is written. -/
theorem SourceMap.nodeAt_put {e : SourceEntry} (stands : EntryStands e) (map : SourceMap) (node : Option (Fin 16))
    (f : SourceEntry) : (map.put node e).nodeAt f = if e = f then node else map.nodeAt f := by
  have named {b : Byte} (h : b.toNat ≤ 7) : row 8 b = some ⟨b.toNat, by omega⟩ := row_of_val rfl
  obtain ⟨known, zone⟩ := stands
  cases e with
  | temperature b =>
    have hb := named (zone b (.inl rfl))
    cases f <;> simp [SourceMap.put, SourceMap.tryPut, SourceMap.nodeAt, hb, row_bind_set hb]
  | gas b =>
    have hb := named (zone b (.inr rfl))
    cases f <;> simp [SourceMap.put, SourceMap.tryPut, SourceMap.nodeAt, hb, row_bind_set hb]
  | outdoor | daylight => cases f <;> simp [SourceMap.put, SourceMap.tryPut, SourceMap.nodeAt]
  | noSuchEntry => exact absurd rfl known

/-! ### One item (R79) -/

/-- The node an item names. -/
def itemNode (i : SourceItem) : Option (Fin 16) := i.node.bind nodeRow

theorem itemNode_eq {b : Byte} {n : Fin 16} (names : i.node = some b) (val : b.toNat = n.val + 1) :
    itemNode i = some n := by
  rw [itemNode, names]
  exact nodeRow_of_val val

/-- An item that SOURCE_MAP_WRITE takes. -/
structure Sensors.Takes (m : Sensors) (i : SourceItem) : Prop where
  entry : EntryStands i.entry
  node  : ∀ b, i.node = some b → 1 ≤ b.toNat ∧ b.toNat ≤ 16
  type  : ∀ n, itemNode i = some n → (m.nodes.get n).config.configured = true →
    requiredType i.entry = some (m.nodes.get n).config.type

theorem nodeRow_inside {b : Byte} (h : 1 ≤ b.toNat ∧ b.toNat ≤ 16) : ∃ n, nodeRow b = some n ∧ n.val + 1 = b.toNat :=
  ⟨⟨b.toNat - 1, by omega⟩, nodeRow_of_val (by simp; omega), by simp; omega⟩

theorem Sensors.Takes.itemNode_val (h : m.Takes i) : (itemNode i).map (fun n => n.val + 1) = i.node.map BitVec.toNat := by
  unfold itemNode
  cases hn : i.node with
  | none => rfl
  | some b =>
    obtain ⟨n, named, val⟩ := nodeRow_inside (h.node b hn)
    simp [named, val]

/-- An item that names no node is written where its entry exists. -/
theorem Sensors.writeEntry_none (hn : i.node = none) : m.writeEntry map i = map.tryPut (itemNode i) i.entry := by
  unfold Sensors.writeEntry itemNode
  rw [hn]
  cases i.entry <;> rfl

theorem Sensors.writeEntry_outside {b : Byte} (hn : i.node = some b) (outside : nodeRow b = none) :
    m.writeEntry map i = none := by
  unfold Sensors.writeEntry
  simp [hn, outside]

/-- An item that names a node is written where its entry exists and the node, when configured, is of its type. -/
theorem Sensors.writeEntry_some {b : Byte} {n : Fin 16} (hn : i.node = some b) (hr : nodeRow b = some n) :
    m.writeEntry map i =
      if (m.nodes.get n).config.configured = true ∧ requiredType i.entry ≠ some (m.nodes.get n).config.type then none
      else map.tryPut (itemNode i) i.entry := by
  unfold Sensors.writeEntry itemNode
  simp only [hn, Option.bind_some, hr]
  cases i.entry <;> simp [requiredType, SourceMap.tryPut, eq_comm (b := (m.nodes.get n).config.type)]

/-- An item is written exactly where it is taken. -/
theorem Sensors.writeEntry_eq_some_iff {new : SourceMap} :
    m.writeEntry map i = some new ↔ m.Takes i ∧ new = map.put (itemNode i) i.entry := by
  have put : map.tryPut (itemNode i) i.entry = some new ↔ EntryStands i.entry ∧ new = map.put (itemNode i) i.entry := by
    rw [← map.tryPut_isSome_iff (itemNode i), SourceMap.put]
    cases map.tryPut (itemNode i) i.entry <;> simp [eq_comm]
  cases hn : i.node with
  | none =>
    have names : itemNode i = none := by rw [itemNode, hn]; rfl
    rw [Sensors.writeEntry_none hn, put]
    refine and_congr_left fun _ => ⟨fun stands => ⟨stands, fun b h => ?_, fun n h => ?_⟩, Sensors.Takes.entry⟩
    · cases hn.symm.trans h
    · cases names.symm.trans h
  | some b =>
    have names : itemNode i = nodeRow b := by rw [itemNode, hn]; rfl
    cases hr : nodeRow b with
    | none =>
      rw [Sensors.writeEntry_outside hn hr]
      refine ⟨nofun, fun ⟨takes, _⟩ => ?_⟩
      obtain ⟨n, named, _⟩ := nodeRow_inside (takes.node b hn)
      cases hr.symm.trans named
    | some n =>
      rw [Sensors.writeEntry_some hn hr]
      split
      · next mistyped => exact ⟨nofun, fun ⟨takes, _⟩ =>
          absurd (takes.type n (names.trans hr) mistyped.1) mistyped.2⟩
      · next fits =>
        rw [put]
        refine and_congr_left fun _ => ⟨fun stands => ⟨stands, fun c h => ?_, fun k h yes => ?_⟩, Sensors.Takes.entry⟩
        · cases hn.symm.trans h
          have := nodeRow_eq_some_iff.mp hr
          omega
        · cases (names.trans hr).symm.trans h
          exact not_not.mp (not_and.mp fits yes)

/-! ### Every item in order (R79) -/

/-- A source map with every item of a list written. -/
def SourceMap.putAll (map : SourceMap) (items : List SourceItem) : SourceMap :=
  items.foldl (fun map i => map.put (itemNode i) i.entry) map

theorem Sensors.writeMap_takes {items : List SourceItem} (h : ∀ i ∈ items, m.Takes i) (map : SourceMap) :
    m.writeMap items map = some (map.putAll items) := by
  induction items generalizing map with
  | nil => rfl
  | cons i rest ih =>
    obtain ⟨first, others⟩ := List.forall_mem_cons.mp h
    unfold Sensors.writeMap
    rw [Sensors.writeEntry_eq_some_iff.mpr ⟨first, rfl⟩]
    exact ih others _

theorem Sensors.takes_of_writeMap {items : List SourceItem} {new : SourceMap} (h : m.writeMap items map = some new) :
    ∀ i ∈ items, m.Takes i := by
  induction items generalizing map with
  | nil => exact fun i mem => absurd mem List.not_mem_nil
  | cons i rest ih =>
    obtain ⟨next, first, others⟩ := Option.bind_eq_some_iff.mp h
    exact List.forall_mem_cons.mpr ⟨(Sensors.writeEntry_eq_some_iff.mp first).1, ih others⟩

/-- An entry that no item names is as it was. -/
theorem SourceMap.nodeAt_putAll_unnamed {items : List SourceItem} {e : SourceEntry} (h : ∀ i ∈ items, m.Takes i)
    (unnamed : ∀ i ∈ items, i.entry ≠ e) (map : SourceMap) : (map.putAll items).nodeAt e = map.nodeAt e := by
  induction items generalizing map with
  | nil => rfl
  | cons i rest ih =>
    obtain ⟨first, others⟩ := List.forall_mem_cons.mp h
    obtain ⟨other, unnamed⟩ := List.forall_mem_cons.mp unnamed
    refine (ih others unnamed _).trans ?_
    rw [SourceMap.nodeAt_put first.entry, if_neg other]

/-- An entry holds the node of the last item that names it. -/
theorem SourceMap.nodeAt_putAll_last {before after : List SourceItem} (h : ∀ j ∈ before ++ i :: after, m.Takes j)
    (last : ∀ j ∈ after, j.entry ≠ i.entry) (map : SourceMap) :
    (map.putAll (before ++ i :: after)).nodeAt i.entry = itemNode i := by
  obtain ⟨_, rest⟩ := List.forall_mem_append.mp h
  obtain ⟨own, others⟩ := List.forall_mem_cons.mp rest
  have split : map.putAll (before ++ i :: after) = ((map.putAll before).put (itemNode i) i.entry).putAll after := by
    simp [SourceMap.putAll]
  rw [split, SourceMap.nodeAt_putAll_unnamed others last, SourceMap.nodeAt_put own.entry, if_pos rfl]

/-- Settles O38. -/
theorem sourceMapWrite : Obligations.SourceMapWrite := by
  refine ⟨fun s o a h bad => ?_, fun s o a h good => ?_⟩
  · refine State.runCall_turnedAway h ?_
    unfold ownSourceMapWrite
    rw [setReceiver_sensors]
    cases written : s.sensors.writeMap a.items s.sensors.map with
    | none => rfl
    | some new =>
      have takes := Sensors.takes_of_writeMap written
      obtain ⟨i, mem, bad⟩ := bad
      obtain ⟨⟨known, zone⟩, node, type⟩ := takes i mem
      rcases bad with missing | ⟨z, names, high⟩ | ⟨b, names, outside⟩ | ⟨n, b, names, val, configured, mistyped⟩
      · exact absurd missing known
      · have := zone z names; omega
      · have := node b names; omega
      · exact absurd (type n (itemNode_eq names val) configured) mistyped
  · have takes : ∀ i ∈ a.items, s.sensors.Takes i := fun i mem =>
      have ⟨known, zone, node, type⟩ := good i mem
      ⟨⟨known, zone⟩, node, fun n named => have ⟨b, names, row⟩ := Option.bind_eq_some_iff.mp named
        type n b names (nodeRow_eq_some_iff.mp row)⟩
    refine ⟨s.sensors.map.putAll a.items, State.runCall_answers h { s with
      sensors := { s.sensors with map := s.sensors.map.putAll a.items } } ?_, fun before i after items last => ?_,
      fun z unnamed => ?_, fun z unnamed => ?_, fun unnamed => ?_, fun unnamed => ?_, fun empty => ?_⟩
    · unfold ownSourceMapWrite
      rw [setReceiver_sensors, Sensors.writeMap_takes takes]
      rfl
    · rw [items] at takes ⊢
      have holds := SourceMap.nodeAt_putAll_last takes last s.sensors.map
      have val := (takes i (by simp)).itemNode_val
      rw [← val, ← holds]
      refine ⟨fun z e => ?_, fun z e => ?_, fun e => ?_, fun e => ?_⟩
      · rw [e, SourceMap.nodeAt_temperature]
      · rw [e, SourceMap.nodeAt_gas]
      · rw [e]; rfl
      · rw [e]; rfl
    · rw [← SourceMap.nodeAt_temperature, ← SourceMap.nodeAt_temperature, SourceMap.nodeAt_putAll_unnamed takes unnamed]
    · rw [← SourceMap.nodeAt_gas, ← SourceMap.nodeAt_gas, SourceMap.nodeAt_putAll_unnamed takes unnamed]
    · exact SourceMap.nodeAt_putAll_unnamed takes unnamed _
    · exact SourceMap.nodeAt_putAll_unnamed takes unnamed _
    · rw [empty]; rfl

end Sys2Proof.Machine
end

section
/-! SUPPORT. SENSOR_LIMITS, with the comparison of every node it brings (R74, R75, R77), and the reading handed for a source
(R80). -/

namespace Sys2Proof.Machine

/-! ### Set events and the receivers (R160, R166) -/

/-- A link's receiver set, of one Link Interface. -/
def LinkInterface.setReceiver (i : LinkInterface) (l : Link) (r : Receiver) : LinkInterface :=
  i.setLink l { i.link l with receiver := r }

theorem LinkState.offer_withReceiver (x : LinkState) (r : Receiver) (f : Frame) :
    LinkState.offer { x with receiver := r } f = { x.offer f with receiver := r } := by
  unfold LinkState.offer
  split <;> rfl

theorem LinkInterface.offer_setReceiver (i : LinkInterface) (l : Link) (r : Receiver) (f : Frame) :
    (i.setReceiver l r).offer .supervisor f = (i.offer .supervisor f).setReceiver l r := by
  cases l with
  | supervisor =>
    exact congrArg (fun x => ({ i with supervisor := x } : LinkInterface)) (i.supervisor.offer_withReceiver r f)
  | panel => rfl

theorem LinkInterface.notify_setReceiver (i : LinkInterface) (l : Link) (r : Receiver) (n : Notice) :
    (i.setReceiver l r).notify .supervisor n = (i.notify .supervisor n).setReceiver l r := by
  have restart : (i.setReceiver l r).restart = i.restart := i.setLink_restart l _
  unfold LinkInterface.notify
  rw [restart]
  split
  · rfl
  · exact i.offer_setReceiver l r _

/-- A set event leaves the receivers alone and does not look at them. -/
theorem LinkInterface.raise_setReceiver (i : LinkInterface) (l : Link) (r : Receiver) (f : Flag) :
    (i.setReceiver l r).raise f = (i.raise f).setReceiver l r := by
  have flags : ({ i.setReceiver l r with flags := (i.setReceiver l r).flags ||| flagBit f } : LinkInterface)
      = LinkInterface.setReceiver { i with flags := i.flags ||| flagBit f } l r := by cases l <;> rfl
  have stands : (i.setReceiver l r).isSet f = i.isSet f := by cases l <;> rfl
  unfold LinkInterface.raise
  rw [stands, flags]
  generalize ({ i with flags := i.flags ||| flagBit f } : LinkInterface) = j
  have told : (j.setReceiver l r).isEnabled f = j.isEnabled f
      ∧ (j.setReceiver l r).flags = j.flags ∧ (j.setReceiver l r).enables = j.enables := by
    cases l <;> exact ⟨rfl, rfl, rfl⟩
  obtain ⟨enabled, set, enables⟩ := told
  dsimp only
  rw [enabled, set, enables, LinkInterface.notify_setReceiver]
  split_ifs <;> rfl

theorem State.raiseIf_setReceiver (s : State) (l : Link) (r : Receiver) (c : Bool) (f : Flag) :
    (s.setReceiver l r).raiseIf c f = (s.raiseIf c f).setReceiver l r := by
  cases c with
  | false => rfl
  | true => exact congrArg (fun i => ({ s with links := i } : State)) (s.links.raise_setReceiver l r f)

theorem State.raiseIf_raiseIf (s : State) (a b : Bool) (f : Flag) : (s.raiseIf a f).raiseIf b f = s.raiseIf (a || b) f :=
  (State.foldl_raiseIf f id [a, b] s).trans (by simp)

/-! ### Every node compared with the limits (R74, R75) -/

/-- A state with the nodes of a list compared with the limits, and nothing delivered. -/
def State.comparedNodes (s : State) (l : List (Fin 16)) : State :=
  { s with sensors := { s.sensors with
      nodes := s.sensors.nodes.mapIdx fun n x => if n ∈ l then x.compared s.sensors.stale s.sensors.degrade else x } }

/-- A node that a comparison with the limits turns LOST. -/
def State.losesNode (s : State) (n : Fin 16) : Bool :=
  (s.sensors.nodes.get n).turnsLost s.sensors.stale s.sensors.degrade

theorem State.comparedNodes_nil (s : State) : s.comparedNodes [] = s := by
  have same : (s.sensors.nodes.mapIdx fun n x =>
      if n ∈ ([] : List (Fin 16)) then x.compared s.sensors.stale s.sensors.degrade else x) = s.sensors.nodes :=
    Table.ext_get fun n => by simp
  unfold State.comparedNodes
  rw [same]

/-- One node more compared. -/
theorem State.comparedNodes_concat (s : State) {l : List (Fin 16)} {n : Fin 16} (new : n ∉ l) :
    (s.comparedNodes l).compareNode n = (s.comparedNodes (l ++ [n])).raiseIf (s.losesNode n) .sensorLost := by
  have row : (s.comparedNodes l).sensors.nodes.get n = s.sensors.nodes.get n := by
    simp [State.comparedNodes, new]
  have nodes : (s.comparedNodes l).setNode n ((s.sensors.nodes.get n).compared s.sensors.stale s.sensors.degrade)
      = s.comparedNodes (l ++ [n]) := by
    unfold State.comparedNodes State.setNode
    dsimp only
    congr 2
    refine Table.ext_get fun k => ?_
    rw [Table.get_set, Table.get_mapIdx, Table.get_mapIdx]
    by_cases own : n = k
    · simp [own]
    · simp [own, Ne.symm own]
  rw [State.compareNode_eq, row]
  exact congrArg (State.raiseIf · _ _) nodes

/-- A comparison does not look at the links. -/
theorem State.compareNode_raiseIf (s : State) (c : Bool) (n : Fin 16) :
    (s.raiseIf c .sensorLost).compareNode n = (s.compareNode n).raiseIf c .sensorLost := by
  have sensors : (s.raiseIf c .sensorLost).sensors = s.sensors := by cases c <;> rfl
  have node (x : Node) : (s.raiseIf c .sensorLost).setNode n x = (s.setNode n x).raiseIf c .sensorLost := by
    cases c <;> rfl
  rw [State.compareNode_eq, State.compareNode_eq, sensors, node, State.raiseIf_raiseIf, State.raiseIf_raiseIf, Bool.or_comm]

/-- Every node of a list compared: SENSOR_LOST is delivered where one turns LOST. -/
theorem State.foldl_compareNode (s : State) (l : List (Fin 16)) (nodup : l.Nodup) :
    l.foldl (fun t n => t.compareNode n) s = (s.comparedNodes l).raiseIf (l.any s.losesNode) .sensorLost := by
  induction l using List.reverseRecOn with
  | nil => exact (s.comparedNodes_nil).symm
  | append_singleton l n ih =>
    obtain ⟨before, _, apart⟩ := List.nodup_append.mp nodup
    have new : n ∉ l := fun mem => apart n mem n (List.mem_singleton_self n) rfl
    rw [List.foldl_append, List.foldl_cons, List.foldl_nil, ih before, State.compareNode_raiseIf,
      State.comparedNodes_concat s new, State.raiseIf_raiseIf, List.any_append, Bool.or_comm]
    simp

/-- A state with every node compared with the limits, and nothing delivered. -/
def State.nodesCompared (s : State) : State :=
  { s with sensors := { s.sensors with
      nodes := s.sensors.nodes.map fun x => x.compared s.sensors.stale s.sensors.degrade } }

theorem State.comparedNodes_all (s : State) : s.comparedNodes (indices 16) = s.nodesCompared := by
  have same : (s.sensors.nodes.mapIdx fun n x =>
      if n ∈ indices 16 then x.compared s.sensors.stale s.sensors.degrade else x)
        = s.sensors.nodes.map fun x => x.compared s.sensors.stale s.sensors.degrade :=
    Table.ext_get fun n => by simp [mem_indices]
  unfold State.comparedNodes
  rw [same]
  rfl

/-- Every node compared with the limits, and SENSOR_LOST delivered where one turns LOST. -/
def State.allCompared (s : State) : State := s.nodesCompared.raiseIf ((indices 16).any s.losesNode) .sensorLost

theorem State.forEach_compareNode (s : State) : (s.forEach 16 fun n t => t.compareNode n) = s.allCompared := by
  refine (s.foldl_compareNode (indices 16) (List.nodup_finRange 16)).trans ?_
  rw [State.comparedNodes_all]
  rfl

theorem State.allCompared_setReceiver (s : State) (l : Link) (r : Receiver) :
    (s.setReceiver l r).allCompared = s.allCompared.setReceiver l r := s.nodesCompared.raiseIf_setReceiver l r _ _

/-- A node turned LOST is one that is LOST after the comparison and was not before it. -/
theorem State.allCompared_eq {u v : State} (hv : v = u.nodesCompared) :
    u.allCompared = if ∃ n, (v.sensors.nodes.get n).status = .lost ∧ (u.sensors.nodes.get n).status ≠ .lost
      then v.raise .sensorLost else v := by
  have lost : (indices 16).any u.losesNode = true
      ↔ ∃ n, (v.sensors.nodes.get n).status = .lost ∧ (u.sensors.nodes.get n).status ≠ .lost := by
    simp only [List.any_eq_true, mem_indices, true_and, State.losesNode, Node.turnsLost_iff, hv, State.nodesCompared,
      Table.get_map]
  unfold State.allCompared State.raiseIf
  rw [← hv]
  exact if_congr lost rfl rfl

/-! ### SENSOR_LIMITS (R77) -/

theorem limit_moved_iff (v : Option Half) (new : Nat) :
    (v.any fun v => v.toNat != new) = true ↔ ∃ w, v = some w ∧ w.toNat ≠ new := by
  cases v <;> simp

theorem sensorLimits_spec : Claims.SensorLimits := by
  intro s u v w o a stale written degrade assumed st h hstale hwritten hdegrade hassumed hst hu hv hw
  have stale_eq : (a.stale.map fun v => clampNat 5 255 v.toNat).getD s.sensors.stale = stale := by
    rw [hstale]; cases a.stale <;> rfl
  have written_eq : (a.degrade.map fun v => clampNat 10 3600 v.toNat).getD s.sensors.degrade = written := by
    rw [hwritten]; cases a.degrade <;> rfl
  have assumed_eq : (a.assumed.map BitVec.toNat).getD s.sensors.assumed = assumed := by
    rw [hassumed]; cases a.assumed <;> rfl
  have status : okOrClamped ((a.stale.any fun v => v.toNat != stale) || (a.degrade.any fun v => v.toNat != written)
      || written != degrade) = st := by
    unfold okOrClamped
    rw [hst]
    simp only [Bool.or_eq_true, limit_moved_iff, bne_iff_ne, or_assoc]
  have compared : u.allCompared = w := by
    have rule : v = u.nodesCompared := by
      rw [hv, hu]
      rfl
    rw [hw, State.allCompared_eq rule, show u.sensors.nodes = s.sensors.nodes by rw [hu]]
  have received : ({ s.setReceiver o.link .hunting with sensors := { s.sensors with
      stale := stale, degrade := degrade, assumed := assumed } } : State) = u.setReceiver o.link .hunting := by
    rw [hu]; rfl
  refine State.runCall_answers h _ ?_
  unfold ownSensorLimits
  simp only [setReceiver_sensors, stale_eq, written_eq, assumed_eq, ← hdegrade, status, received,
    State.forEach_compareNode, State.allCompared_setReceiver, compared]
  split <;> rfl

/-! ### Source readings (R80) -/

theorem Sensors.reading_unusable {m : Sensors} {n : Fin 16}
    (h : (m.nodes.get n).config.configured = false ∨ (m.nodes.get n).status = .lost) :
    m.reading (some n) = ⟨.lost, none⟩ := by
  unfold Sensors.reading
  dsimp only
  rcases h with unconfigured | lost
  · rw [unconfigured]; rfl
  · rw [lost]; cases (m.nodes.get n).config.configured <;> rfl

theorem Sensors.reading_usable {m : Sensors} {n : Fin 16} {v : Nat} (yes : (m.nodes.get n).config.configured = true)
    (status : (m.nodes.get n).status = .fresh ∨ (m.nodes.get n).status = .suspect ∨ (m.nodes.get n).status = .held)
    (value : (m.nodes.get n).value = some v) : m.reading (some n) = ⟨(m.nodes.get n).status, some v⟩ := by
  unfold Sensors.reading
  dsimp only
  rw [yes, value]
  rcases status with status | status | status <;> rw [status]

theorem sourceReadings_spec : Claims.SourceReadings := fun _ =>
  ⟨rfl, fun _ => Sensors.reading_unusable, fun _ _ => Sensors.reading_usable, fun lost => if_pos lost,
   fun usable => if_neg usable⟩

/-- Settles O39. -/
theorem sensorLimitsAndSources : Obligations.SensorLimitsAndSources := ⟨sensorLimits_spec, sourceReadings_spec⟩

end Sys2Proof.Machine
end

section
/-! SUPPORT. The heat request: the plain request, and the stage the hysteresis holds against a falling one (R94). -/

namespace Sys2Proof.Machine

variable {c : ZoneConfig} {previous : Nat} {e : Int}

/-! ### The plain request (R94) -/

/-- The plain request is an installed stage, its threshold is reached unless it is stage 0, and no installed threshold above
it is. -/
theorem ZoneConfig.plain_spec (c : ZoneConfig) (e : Int) :
    c.plain e ≤ c.heaterStages ∧ (1 ≤ c.plain e → ((c.plain e * c.step : Nat) : Int) ≤ e)
    ∧ ∀ i, c.plain e < i → i ≤ c.heaterStages → e < ((i * c.step : Nat) : Int) := by
  obtain ⟨installed, reached, highest⟩ :=
    largestWhere_spec (fun i => ((i * c.step : Nat) : Int) ≤ e) c.heaterStages
  exact ⟨installed, fun asked => of_decide_eq_true (reached (Nat.pos_iff_ne_zero.mp asked)),
    fun i above le => Int.not_le.mp (of_decide_eq_false (highest i above le))⟩

/-- Any stage's threshold is at least the first stage's, so an error below that one asks for no stage. -/
theorem ZoneConfig.plain_eq_zero (h : e < (c.step : Int) ∨ c.heaterStages = 0) : c.plain e = 0 := by
  obtain ⟨installed, reached, -⟩ := c.plain_spec e
  by_contra asked
  have first : c.step ≤ c.plain e * c.step := Nat.le_mul_of_pos_left _ (Nat.pos_of_ne_zero asked)
  have threshold := reached (Nat.pos_of_ne_zero asked)
  omega

/-- A top threshold the error does not reach leaves the top stage unasked; a top threshold above 255 is one. -/
theorem ZoneConfig.plain_lt_top (h : e < ((c.heaterStages * c.step : Nat) : Int)) (stages : 1 ≤ c.heaterStages) :
    c.plain e < c.heaterStages := by
  obtain ⟨installed, reached, -⟩ := c.plain_spec e
  refine lt_of_le_of_ne installed fun top => ?_
  rw [top] at reached
  exact absurd (reached stages) (Int.not_le.mpr h)

/-! ### The hysteresis (R94) -/

/-- The largest stage above the plain request, within the previous request and the installed stages, whose release point the
error is still above; 0 where there is none. -/
def ZoneConfig.held (c : ZoneConfig) (previous : Nat) (e : Int) : Nat :=
  largestWhere (fun j => c.plain e < j ∧ ((j * c.step : Nat) : Int) - (c.hysteresis : Int) < e)
    (min previous c.heaterStages)

theorem ZoneConfig.request_rising (h : previous ≤ c.plain e) : c.request previous e = c.plain e := if_pos h

theorem ZoneConfig.request_falling (h : c.plain e < previous) :
    c.request previous e = max (c.plain e) (c.held previous e) := if_neg (Nat.not_le.mpr h)

theorem ZoneConfig.held_spec (c : ZoneConfig) (previous : Nat) (e : Int) :
    c.held previous e ≤ min previous c.heaterStages
    ∧ (c.held previous e ≠ 0 → c.plain e < c.held previous e
        ∧ ((c.held previous e * c.step : Nat) : Int) - (c.hysteresis : Int) < e)
    ∧ ∀ j, c.held previous e < j → c.plain e < j → j ≤ min previous c.heaterStages →
        e ≤ ((j * c.step : Nat) : Int) - (c.hysteresis : Int) := by
  obtain ⟨within, holds, highest⟩ := largestWhere_spec
    (fun j => c.plain e < j ∧ ((j * c.step : Nat) : Int) - (c.hysteresis : Int) < e) (min previous c.heaterStages)
  exact ⟨within, fun stage => of_decide_eq_true (holds stage),
    fun j above plain le => Int.not_lt.mp fun held => of_decide_eq_false (highest j above le) ⟨plain, held⟩⟩

/-- A falling request is the plain one, or a stage above it that is held; no higher stage is held. -/
theorem ZoneConfig.request_falling_spec (h : c.plain e < previous) :
    (c.request previous e = c.plain e ∨ c.plain e < c.request previous e
      ∧ c.request previous e ≤ min previous c.heaterStages
      ∧ ((c.request previous e * c.step : Nat) : Int) - (c.hysteresis : Int) < e)
    ∧ ∀ j, c.request previous e < j → j ≤ min previous c.heaterStages →
        e ≤ ((j * c.step : Nat) : Int) - (c.hysteresis : Int) := by
  obtain ⟨within, holds, highest⟩ := c.held_spec previous e
  rw [ZoneConfig.request_falling h]
  refine ⟨?_, fun j above le => highest j (by omega) (by omega) le⟩
  by_cases none : c.held previous e = 0
  · exact .inl (by omega)
  · obtain ⟨above, release⟩ := holds none
    rw [max_eq_right above.le]
    exact .inr ⟨above, within, release⟩

theorem ZoneConfig.request_installed (c : ZoneConfig) (previous : Nat) (e : Int) :
    c.request previous e ≤ c.heaterStages := by
  have plain := (c.plain_spec e).1
  rcases Nat.lt_or_ge (c.plain e) previous with falling | rising
  · obtain ⟨request | ⟨-, within, -⟩, -⟩ := ZoneConfig.request_falling_spec falling
    · exact request.trans_le plain
    · exact within.trans (min_le_right _ _)
  · exact (ZoneConfig.request_rising rising).trans_le plain

/-- Settles O45. -/
theorem heatRequestWithHysteresis : Obligations.HeatRequestWithHysteresis := by
  intro c previous plain h e _ hplain hh
  subst hplain hh
  obtain ⟨installed, reached, highest⟩ := c.plain_spec e
  refine ⟨installed, c.request_installed previous e, reached, highest, ZoneConfig.plain_eq_zero,
    ZoneConfig.request_rising, ZoneConfig.request_falling_spec, fun error top => ZoneConfig.plain_lt_top (by omega) ?_⟩
  by_contra none
  simp [Nat.eq_zero_of_not_pos none] at top

end Sys2Proof.Machine
end

section
/-! SUPPORT. A zone's results in a cycle, mode by mode, and the deviation and deficit they sum to (R85, R92 to R103, R105). -/

namespace Sys2Proof.Machine

variable {s : State} {x : Zone} {i : ZoneInputs} {c : ZoneConfig}

/-! ### The stages and the mode (R85, R95, R97, R99) -/

theorem Reading.usable_iff (r : Reading) : r.usable = true ↔ r.status ≠ .lost := bne_iff_ne

theorem lostGasStages_eq (p : Phase) : lostGasStages p = if p = .setback ∨ p = .preheat then 0 else 1 := by
  cases p <;> rfl

theorem ZoneInputs.gasStages_eq (i : ZoneInputs) : i.gasStages =
    if i.gas.status ≠ .lost then
      (if i.ppm < i.g1 then 0 else if i.ppm < i.g2 then 1 else if i.ppm < i.g3 then 2 else 3)
    else if i.phase = .setback ∨ i.phase = .preheat then 0 else 1 := by
  unfold ZoneInputs.gasStages
  simp only [Reading.usable_iff, lostGasStages_eq]
  rfl

theorem ZoneInputs.trailerStages_eq (i : ZoneInputs) (c : ZoneConfig) : i.trailerStages c =
    if i.phase = .work ∨ i.phase = .changeover then
      min 3 ((i.trailers + (c.trailersPerStage - 1)) / c.trailersPerStage) else 0 := by
  unfold ZoneInputs.trailerStages
  simp only [busyClass_iff]
  rfl

theorem ZoneInputs.mode_eq (i : ZoneInputs) (m : ZoneMode) : i.mode m =
    if m = .auto ∨ m = .degraded then
      (if i.temperature.status ≠ .lost ∧ i.gas.status ≠ .lost then .auto else .degraded) else m := by
  cases m <;> simp [ZoneInputs.mode, Reading.usable_iff]

/-- The temperature source decides which results a DEGRADED zone has (R98). -/
theorem Zone.resultsIn_degraded (x : Zone) (i : ZoneInputs) : x.resultsIn i .degraded =
    if i.temperature.status = .lost then i.unmeasured x.config else i.measured x.config .degraded x.results.heat := by
  unfold Zone.resultsIn
  simp only [Reading.usable_iff, ite_not]

/-! ### The results by mode (R83, R93, R97 to R101) -/

/-- The results of a zone AUTO or DEGRADED are those of a measured temperature or those of a lost one. -/
theorem Zone.resultsIn_automatic {m : ZoneMode} (h : m = .auto ∨ m = .degraded) :
    x.resultsIn i m = i.measured x.config m x.results.heat ∨ x.resultsIn i m = i.unmeasured x.config := by
  rcases h with rfl | rfl
  · exact .inl rfl
  · rw [Zone.resultsIn_degraded]
    split
    · exact .inr rfl
    · exact .inl rfl

theorem Zone.resultsIn_measured {m : ZoneMode} (h : m = .auto ∨ m = .degraded ∧ i.temperature.status ≠ .lost) :
    x.resultsIn i m = i.measured x.config m x.results.heat := by
  rcases h with rfl | ⟨rfl, usable⟩
  · rfl
  · rw [Zone.resultsIn_degraded, if_neg usable]

theorem Zone.resultsIn_unmeasured (lost : i.temperature.status = .lost) :
    x.resultsIn i .degraded = i.unmeasured x.config := by
  rw [Zone.resultsIn_degraded, if_pos lost]

theorem ZoneInputs.gasFloor_le_fanRequest (i : ZoneInputs) (c : ZoneConfig) : i.gasFloor c ≤ i.fanRequest c :=
  min_le_min_left _ (le_max_left _ _)

theorem Zone.resultsIn_fans {m : ZoneMode} (h : m = .auto ∨ m = .degraded) :
    (x.resultsIn i m).fans = i.fanRequest x.config ∧ (x.resultsIn i m).gasFloor = i.gasFloor x.config
    ∧ (x.resultsIn i m).gasFloor ≤ (x.resultsIn i m).fans := by
  rcases Zone.resultsIn_automatic (x := x) (i := i) h with results | results <;> rw [results] <;>
    exact ⟨rfl, rfl, i.gasFloor_le_fanRequest x.config⟩

/-- An AUTO zone alone has a deviation share (R102). -/
theorem Zone.resultsIn_share (x : Zone) (i : ZoneInputs) (m : ZoneMode) :
    (x.resultsIn i m).share = if m = .auto then some i.error.natAbs else none := by
  cases m with
  | off | manual | auto => rfl
  | degraded => rcases Zone.resultsIn_automatic (x := x) (i := i) (.inr rfl) with results | results <;> rw [results] <;> rfl

theorem zoneResultsByMode_spec : Claims.ZoneResultsByMode := by
  intro x y i vgas vtrl loss makeUp boost e w hy hgas htrl hloss hmakeUp hboost he hw
  obtain rfl : vgas = i.gasStages := hgas.trans i.gasStages_eq.symm
  obtain rfl : vtrl = i.trailerStages x.config := htrl.trans (i.trailerStages_eq x.config).symm
  obtain rfl : loss = doorLoss i.openTime x.config.doorCoefficient i.deltaT := hloss
  obtain rfl : makeUp = i.makeUp x.config := hmakeUp
  obtain rfl : boost = i.boost x.config y.mode := hboost
  obtain rfl : e = i.effective x.config y.mode := he
  subst hw
  have mode : y.mode = i.mode x.mode := congrArg Zone.mode hy
  have results : y.results = x.resultsIn i y.mode := hy ▸ rfl
  refine ⟨hy ▸ rfl, hy ▸ rfl, hy ▸ rfl, mode.trans (i.mode_eq x.mode), ?_⟩
  rw [results]
  generalize y.mode = m
  refine ⟨?off, ?manual, Zone.resultsIn_fans, fun measured => ?measured, ?lost, x.resultsIn_share i m⟩
  case off => rintro rfl; rfl
  case manual => rintro rfl; exact ⟨rfl, rfl, rfl, rfl, rfl, rfl⟩
  case measured => rw [Zone.resultsIn_measured measured]; exact ⟨rfl, rfl, rfl⟩
  case lost => rintro rfl lost; rw [Zone.resultsIn_unmeasured lost]; exact ⟨rfl, rfl, rfl⟩

/-! ### The deviation and the deficit (R102, R103) -/

theorem Table.sum_eq_indices {n : Nat} (t : Table n Nat) : t.sum = ((indices n).map t.get).sum := by
  have rows : t.rows = (indices n).map t.get :=
    List.ext_get (by simp [indices, t.size]) fun k _ _ => by simp [indices, Table.get_eq]
  exact congrArg List.sum rows

theorem State.cycledZones_get (s : State) (z : Fin 8) :
    s.cycledZones.get z = (s.climate.zones.get z).cycle (s.zoneInputs z) := Table.get_mapIdx _ _ _

theorem State.cycledZones_share (s : State) (z : Fin 8) : (s.cycledZones.get z).results.share =
    if (s.cycledZones.get z).mode = .auto then some (s.zoneInputs z).error.natAbs else none := by
  rw [s.cycledZones_get z]
  exact Zone.resultsIn_share _ _ _

theorem State.cycledDeviation_eq (s : State) :
    s.cycledClimate.deviation = ((indices 8).map fun z => (s.cycledZones.get z).results.share.getD 0).sum := by
  refine (Table.sum_eq_indices _).trans (congrArg List.sum (List.map_congr_left fun z _ => ?_))
  exact Table.get_map _ _ z

theorem State.cycledDeficit_eq (s : State) : s.cycledClimate.deficit
    = ((indices 8).map fun z => (s.cycledZones.get z).deficit (s.zoneInputs z)).sum := by
  refine (Table.sum_eq_indices _).trans (congrArg List.sum (List.map_congr_left fun z _ => ?_))
  exact Table.get_mapIdx _ _ z

theorem Zone.deficit_eq (x : Zone) (i : ZoneInputs) :
    x.deficit i = if x.mode = .auto ∧ i.code < i.setpointWork then i.setpointWork - i.code else 0 := by
  unfold Zone.deficit
  by_cases auto : x.mode = .auto
  · simp only [auto, true_and, if_true]
    split <;> omega
  · simp [auto]

/-- Eight figures, each a difference of two codes, sum to at most 2,040. -/
theorem sum_zones_le {f : Fin 8 → Nat} (h : ∀ z, f z ≤ 255) : ((indices 8).map f).sum ≤ 2040 := by
  refine (List.sum_le_card_nsmul _ 255 ?_).trans_eq (by simp [indices])
  simpa using fun z _ => h z

theorem sum_zones_eq_zero {f : Fin 8 → Nat} (h : ∀ z, f z = 0) : ((indices 8).map f).sum = 0 := by
  rw [show f = fun _ => 0 from funext h]
  rfl

theorem deviationAndDeficit_spec : Claims.DeviationAndDeficit := by
  refine ⟨fun s => ⟨s.cycledDeviation_eq, ?_⟩, fun s codes => ?_⟩
  · simp only [s.cycledDeficit_eq, Zone.deficit_eq]
  · rw [s.cycledDeviation_eq, s.cycledDeficit_eq]
    refine ⟨sum_zones_le fun z => ?share, sum_zones_le fun z => ?deficit,
      fun idle => ⟨sum_zones_eq_zero fun z => ?noShare, sum_zones_eq_zero fun z => if_neg (idle z)⟩⟩
    all_goals obtain ⟨setpoint, work, code⟩ := codes z
    case share =>
      rw [s.cycledZones_share z]
      split
      · show ((s.zoneInputs z).setpoint - (s.zoneInputs z).code : Int).natAbs ≤ 255
        omega
      · exact Nat.zero_le _
    case deficit => rw [Zone.deficit_eq]; split <;> omega
    case noShare => rw [s.cycledZones_share z, if_neg (idle z)]; rfl

/-- Settles O44. -/
theorem zoneResults : Obligations.ZoneResults := ⟨zoneResultsByMode_spec, deviationAndDeficit_spec⟩

end Sys2Proof.Machine
end

section
/-! SUPPORT. CYCLE_PERIOD, CLIMATE_SETTINGS and ZONE_READ (R88, R96, R102, R105). -/

namespace Sys2Proof.Machine

variable {s : State} {o : Origin}

/-- A threshold at or below the one before it is raised to 1 above it (R96). -/
theorem raisedAbove_eq (below v : Nat) : max (below + 1) v = if v ≤ below then below + 1 else v := by
  split <;> omega

/-- An optional field's value, with the value in force where the field is absent. -/
theorem given_or_standing (v : Option Half) (standing : Nat) :
    (match v with | some v => v.toNat | none => standing) = (v.map BitVec.toNat).getD standing := by
  cases v <;> rfl

theorem exec_cyclePeriod (h : s.Admits .cyclePeriod o) (a : CyclePeriodArgs) {n : Nat}
    (hn : n = (a.setting.map fun v => min 59 v.toNat).getD s.climate.setting) :
    exec (.cyclePeriod o (some a)) s
      = .next (State.answered { s with climate := { s.climate with setting := n } } .cyclePeriod o
          ⟨if ∃ v, a.setting = some v ∧ 59 < v.toNat then .clamped else .ok, .cycle n s.climate.timer⟩) := by
  refine State.runCall_answers h { s with climate := { s.climate with setting := n } } ?_
  have status : okOrClamped (a.setting.any fun v => 59 < v.toNat)
      = if ∃ v, a.setting = some v ∧ 59 < v.toNat then .clamped else .ok := by
    unfold okOrClamped
    simp only [Option.any_eq_true, decide_eq_true_eq]
  unfold ownCyclePeriod
  simp only [setReceiver_climate, ← hn, status]
  rfl

theorem exec_climateSettings (h : s.Admits .climateSettings o) (a : ClimateSettingsArgs)
    {w1 w2 w3 wd g1 g2 g3 d : Nat} (hw1 : w1 = (a.g1.map BitVec.toNat).getD s.climate.g1)
    (hw2 : w2 = (a.g2.map BitVec.toNat).getD s.climate.g2) (hw3 : w3 = (a.g3.map BitVec.toNat).getD s.climate.g3)
    (hwd : wd = (a.deviationLimit.map BitVec.toNat).getD s.climate.deviationLimit)
    (hg1 : g1 = min 998 w1) (hg2 : g2 = (if min 999 w2 ≤ g1 then g1 + 1 else min 999 w2))
    (hg3 : g3 = (if min 1000 w3 ≤ g2 then g2 + 1 else min 1000 w3)) (hd : d = min 2040 wd) :
    exec (.climateSettings o (some a)) s
      = .next (State.answered
          { s with climate := { s.climate with g1 := g1, g2 := g2, g3 := g3, deviationLimit := d } } .climateSettings o
          ⟨if g1 = w1 ∧ g2 = w2 ∧ g3 = w3 ∧ d = wd then .ok else .clamped, .climate g1 g2 g3 d⟩) := by
  refine State.runCall_answers h
    { s with climate := { s.climate with g1 := g1, g2 := g2, g3 := g3, deviationLimit := d } } ?_
  rw [← raisedAbove_eq] at hg2 hg3
  have status : okOrClamped (g1 != w1 || g2 != w2 || g3 != w3 || d != wd)
      = if g1 = w1 ∧ g2 = w2 ∧ g3 = w3 ∧ d = wd then .ok else .clamped := by
    unfold okOrClamped
    simp only [Bool.or_eq_true, bne_iff_ne, ← not_and_or, and_assoc, ite_not]
  unfold ownClimateSettings
  simp only [setReceiver_climate, ← hw1, ← hw2, ← hw3, ← hwd, ← hg1, ← hg2, ← hg3, ← hd, status]
  rfl

theorem exec_zoneRead_known (h : s.Admits .zoneRead o) (a : IndexArgs) {z : Fin 8} (hz : a.index.toNat = z.val) :
    exec (.zoneRead o (some a)) s = .next (s.answered .zoneRead o ⟨.ok, .zone
      { zone := s.climate.zones.get z, deviation := s.climate.deviation, deficit := s.climate.deficit
        timer := s.climate.timer, period := s.climate.setting + 1, cycles := s.climate.cycles }⟩) := by
  refine State.runCall_answers h s ?_
  unfold ownZoneRead
  rw [row_of_val hz]
  rfl

theorem exec_zoneRead_outside (h : s.Admits .zoneRead o) (a : IndexArgs) (outside : 7 < a.index.toNat) :
    exec (.zoneRead o (some a)) s = .next (s.answered .zoneRead o ⟨.range, .bare⟩) := by
  refine State.runCall_turnedAway h ?_
  unfold ownZoneRead
  rw [row_outside (n := 8) outside]

/-- Settles O42. -/
theorem climateSettingsAndReads : Obligations.ClimateSettingsAndReads := by
  refine ⟨fun s o a n h hn => exec_cyclePeriod h a ?_,
    fun s o a w1 w2 w3 wd g1 g2 g3 d h hw1 hw2 hw3 hwd => exec_climateSettings h a ?_ ?_ ?_ ?_,
    fun s o a h => ⟨fun z => exec_zoneRead_known h a, exec_zoneRead_outside h a⟩⟩
  · rw [hn]; cases a.setting <;> rfl
  · exact hw1.trans (given_or_standing _ _)
  · exact hw2.trans (given_or_standing _ _)
  · exact hw3.trans (given_or_standing _ _)
  · exact hwd.trans (given_or_standing _ _)

end Sys2Proof.Machine
end

section
/-! SUPPORT. The figures of a pass and the zone order (R110, R112, R116, R117, R121). -/

namespace Sys2Proof.Machine

variable {s t u : State}

/-! ### The figures (R112, R116, R121) -/

theorem Table.sum_ofFn {n : Nat} (f : Fin n → Nat) : (Table.ofFn f).sum = ((indices n).map f).sum := by
  rw [Table.sum_eq_indices, funext (Table.get_ofFn f)]

theorem passFigures_spec : Claims.PassFigures := by
  refine ⟨fun x on c hc => ?_, fun g r => ?_⟩
  · obtain ⟨bound, within, past⟩ := largestWhere_spec (fun i => x.time i < on) x.heat
    subst hc
    exact ⟨bound, fun some => of_decide_eq_true (within some),
      fun i above on => Nat.not_lt.mp (of_decide_eq_false (past i above on))⟩
  · unfold Grants.total
    simp only [Table.sum_ofFn]
    rfl

/-! ### The zone order (R117) -/

/-- The order by descending E', ties ascending. -/
def Before (key : Fin 8 → Int) (y z : Fin 8) : Prop := key z < key y ∨ key y = key z ∧ y < z

theorem insertZone_perm (key : Fin 8 → Int) (z : Fin 8) (l : List (Fin 8)) : (insertZone key z l).Perm (z :: l) := by
  induction l with
  | nil => exact .refl _
  | cons y ys ih =>
    unfold insertZone
    split
    · exact .refl _
    · exact (ih.cons y).trans (.swap z y ys)

/-- A zone above all those of an ordered list is put in its place. -/
theorem insertZone_ordered (key : Fin 8 → Int) {z : Fin 8} {l : List (Fin 8)} (ordered : l.Pairwise (Before key))
    (above : ∀ y ∈ l, y < z) : (insertZone key z l).Pairwise (Before key) := by
  induction l with
  | nil => exact List.pairwise_singleton _ _
  | cons y ys ih =>
    obtain ⟨first, rest⟩ := List.pairwise_cons.mp ordered
    unfold insertZone
    split
    · next more =>
      refine List.pairwise_cons.mpr ⟨fun x hx => .inl ?_, ordered⟩
      rcases List.mem_cons.mp hx with rfl | hx
      · exact more
      · rcases first x hx with less | ⟨same, -⟩
        · exact less.trans more
        · exact same ▸ more
    · next most =>
      refine List.pairwise_cons.mpr ⟨fun x hx => ?_, ih rest fun x hx => above x (List.mem_cons_of_mem y hx)⟩
      rcases List.mem_cons.mp ((insertZone_perm key z ys).mem_iff.mp hx) with rfl | hx
      · rcases (Int.not_lt.mp most).lt_or_eq with less | same
        · exact .inl less
        · exact .inr ⟨same.symm, above y List.mem_cons_self⟩
      · exact first x hx

/-- Zones put in ascending order one after another. -/
theorem foldl_insertZone (key : Fin 8 → Int) (zs l : List (Fin 8)) (ascending : zs.Pairwise (· < ·))
    (ordered : l.Pairwise (Before key)) (above : ∀ z ∈ zs, ∀ y ∈ l, y < z) :
    (zs.foldl (fun l z => insertZone key z l) l).Perm (zs ++ l)
    ∧ (zs.foldl (fun l z => insertZone key z l) l).Pairwise (Before key) := by
  induction zs generalizing l with
  | nil => exact ⟨.refl _, ordered⟩
  | cons z zs ih =>
    obtain ⟨first, rest⟩ := List.pairwise_cons.mp ascending
    have inserted := insertZone_perm key z l
    obtain ⟨perm, sorted⟩ := ih (insertZone key z l) rest
      (insertZone_ordered key ordered (above z List.mem_cons_self)) fun x hx y hy => by
        rcases List.mem_cons.mp (inserted.mem_iff.mp hy) with rfl | hy
        · exact first x hx
        · exact above x (List.mem_cons_of_mem z hx) y hy
    exact ⟨perm.trans ((inserted.append_left zs).trans List.perm_middle), sorted⟩

theorem Allocator.mem_zonesIn (a : Allocator) (m : ZoneMode) (z : Fin 8) : z ∈ a.zonesIn m ↔ (a.demandOf z).mode = m := by
  unfold Allocator.zonesIn
  simp [indices]

theorem Allocator.zonesIn_ascending (a : Allocator) (m : ZoneMode) : (a.zonesIn m).Pairwise (· < ·) :=
  (List.pairwise_lt_finRange 8).filter _

/-- Zone y takes part before zone z (R117). -/
def Allocator.Precedes (a : Allocator) (y z : Fin 8) : Prop :=
  (a.demandOf y).mode = .manual ∧ ((a.demandOf z).mode ≠ .manual ∨ y < z)
    ∨ (a.demandOf y).mode = .auto ∧ ((a.demandOf z).mode = .degraded
      ∨ (a.demandOf z).mode = .auto ∧
        (((a.demandOf z).effective.getD 0) < ((a.demandOf y).effective.getD 0)
          ∨ ((a.demandOf y).effective.getD 0) = ((a.demandOf z).effective.getD 0) ∧ y < z))
    ∨ (a.demandOf y).mode = .degraded ∧ (a.demandOf z).mode = .degraded ∧ y < z

theorem Allocator.Precedes.asymm {a : Allocator} {y z : Fin 8} (h : a.Precedes y z) : ¬ a.Precedes z y := by
  unfold Allocator.Precedes at *
  cases my : (a.demandOf y).mode <;> cases mz : (a.demandOf z).mode <;>
    simp only [my, mz, reduceCtorEq, ne_eq, not_true_eq_false, not_false_eq_true, true_and, false_and, and_true, true_or, or_true,
      false_or, or_false, and_false] at h ⊢ <;> omega

/-- The AUTO zones in their order. -/
def Allocator.autoZones (a : Allocator) : List (Fin 8) :=
  (a.zonesIn .auto).foldl (fun l z => insertZone (fun y => ((a.demandOf y).effective).getD 0) z l) []

theorem Allocator.autoZones_spec (a : Allocator) : a.autoZones.Perm (a.zonesIn .auto)
    ∧ a.autoZones.Pairwise (Before fun y => ((a.demandOf y).effective).getD 0) := by
  have folded := foldl_insertZone (fun y => ((a.demandOf y).effective).getD 0) (a.zonesIn .auto) []
    (a.zonesIn_ascending .auto) .nil fun _ _ _ none => absurd none List.not_mem_nil
  rwa [List.append_nil] at folded

theorem Allocator.mem_autoZones (a : Allocator) (z : Fin 8) : z ∈ a.autoZones ↔ (a.demandOf z).mode = .auto :=
  a.autoZones_spec.1.mem_iff.trans (a.mem_zonesIn .auto z)

theorem Allocator.mem_zoneOrder (a : Allocator) (z : Fin 8) : z ∈ a.zoneOrder ↔ (a.demandOf z).mode ≠ .off := by
  show z ∈ a.zonesIn .manual ++ a.autoZones ++ a.zonesIn .degraded ↔ _
  rw [List.mem_append, List.mem_append, a.mem_zonesIn, a.mem_autoZones, a.mem_zonesIn]
  cases (a.demandOf z).mode <;> simp

theorem Allocator.zoneOrder_precedes (a : Allocator) : a.zoneOrder.Pairwise a.Precedes := by
  show (a.zonesIn .manual ++ a.autoZones ++ a.zonesIn .degraded).Pairwise a.Precedes
  have within {m : ZoneMode} {y : Fin 8} := (a.mem_zonesIn m y).mp
  have auto {y : Fin 8} := (a.mem_autoZones y).mp
  refine List.pairwise_append.mpr ⟨List.pairwise_append.mpr ⟨?_, ?_, fun y hy z hz => ?_⟩, ?_, fun y hy z hz => ?_⟩
  · exact (a.zonesIn_ascending .manual).imp_of_mem fun hy _ less => .inl ⟨within hy, .inr less⟩
  · exact a.autoZones_spec.2.imp_of_mem fun hy hz before => .inr (.inl ⟨auto hy, .inr ⟨auto hz, before⟩⟩)
  · exact .inl ⟨within hy, .inl (by rw [auto hz]; decide)⟩
  · exact (a.zonesIn_ascending .degraded).imp_of_mem fun hy hz less => .inr (.inr ⟨within hy, within hz, less⟩)
  · rcases List.mem_append.mp hy with hy | hy
    · exact .inl ⟨within hy, .inl (by rw [within hz]; decide)⟩
    · exact .inr (.inl ⟨auto hy, .inl (within hz)⟩)

theorem Allocator.zoneOrder_nodup (a : Allocator) : a.zoneOrder.Nodup :=
  a.zoneOrder_precedes.imp fun h => by rintro rfl; exact h.asymm h

theorem zoneOrder_spec : Claims.ZoneOrder := by
  intro a
  have ordered := a.zoneOrder_precedes
  refine ⟨a.zoneOrder_nodup, a.mem_zoneOrder, fun y z hy hz first => ?_⟩
  have inY := List.idxOf_lt_length_iff.mpr ((a.mem_zoneOrder y).mpr hy)
  have inZ := List.idxOf_lt_length_iff.mpr ((a.mem_zoneOrder z).mpr hz)
  rcases Nat.lt_trichotomy (a.zoneOrder.idxOf y) (a.zoneOrder.idxOf z) with less | same | more
  · exact less
  · obtain rfl : y = z := (List.idxOf_inj ((a.mem_zoneOrder y).mpr hy)).mp same
    exact absurd first (Allocator.Precedes.asymm first)
  · have back := List.pairwise_iff_getElem.mp ordered _ _ inZ inY more
    rw [List.getElem_idxOf, List.getElem_idxOf] at back
    exact absurd first back.asymm

end Sys2Proof.Machine
end

section
/-! SUPPORT. What a pass grants each load, and in what order it offers (R114 to R120). -/

namespace Sys2Proof.Machine

variable {s t u : State}

/-! ### The reserved class and every request in full (R114, R116) -/

theorem Table.map_eq_ofFn {n : Nat} {α β : Type} (f : α → β) (x : Table n α) : x.map f = Table.ofFn fun i => f (x.get i) :=
  Table.ext_get (by simp)

theorem Allocator.reservedGrants_eq (a : Allocator) : a.reservedGrants =
    { heat := Table.ofFn fun z => (a.zones.get z).committedNow a.minOn
      fans := Table.ofFn fun z => if (a.demandOf z).mode = .off then 0 else (a.demandOf z).gasFloor
      curtains := Table.fill 16 false, levels := Table.ofFn fun g => (a.groups.get g).floorRequest } := by
  unfold Allocator.reservedGrants
  rw [Table.map_eq_ofFn, Table.map_eq_ofFn]
  rfl

@[simp] theorem Allocator.reservedGrants_heat (a : Allocator) (z : Fin 8) :
    a.reservedGrants.heat.get z = (a.zones.get z).committedNow a.minOn := Table.get_map _ _ _

@[simp] theorem Allocator.reservedGrants_fans (a : Allocator) (z : Fin 8) :
    a.reservedGrants.fans.get z = if (a.demandOf z).mode = .off then 0 else (a.demandOf z).gasFloor := Table.get_ofFn _ _

@[simp] theorem Allocator.reservedGrants_curtains (a : Allocator) (c : Fin 16) :
    a.reservedGrants.curtains.get c = false := Table.get_fill _ _

/-- Every request granted in full, on top of the reserved class: what a pass may grant at most. -/
def State.fullGrants (s : State) : Grants where
  heat     := Table.ofFn fun z => max ((s.budget.zones.get z).committedNow s.budget.minOn)
                (if (s.budget.demandOf z).mode = .off then 0 else min 4 (s.budget.demandOf z).heat)
  fans     := Table.ofFn fun z => if (s.budget.demandOf z).mode = .off then 0
                else max (s.budget.demandOf z).gasFloor (min 3 (s.budget.demandOf z).fans)
  curtains := Table.ofFn fun c => (s.doors.curtains.get c).state != .idle
  levels   := Table.ofFn fun i => max (s.budget.groups.get i).floorRequest (s.budget.groups.get i).levelRequest

theorem State.fullGrants_heat (s : State) (z : Fin 8) : s.fullGrants.heat.get z
    = max ((s.budget.zones.get z).committedNow s.budget.minOn)
        (if (s.budget.demandOf z).mode = .off then 0 else min 4 (s.budget.demandOf z).heat) := Table.get_ofFn _ _

theorem State.fullGrants_fans (s : State) (z : Fin 8) : s.fullGrants.fans.get z
    = if (s.budget.demandOf z).mode = .off then 0
      else max (s.budget.demandOf z).gasFloor (min 3 (s.budget.demandOf z).fans) := Table.get_ofFn _ _

theorem State.fullGrants_curtains (s : State) (c : Fin 16) : s.fullGrants.curtains.get c = true
    ↔ (s.doors.curtains.get c).state ≠ .idle := by
  unfold State.fullGrants
  simp

theorem State.fullGrants_levels (s : State) (i : Fin 24) : s.fullGrants.levels.get i
    = max (s.budget.groups.get i).floorRequest (s.budget.groups.get i).levelRequest := Table.get_ofFn _ _

/-! ### Grants compared load by load -/

/-- Each load is granted at most as much. -/
structure Grants.Le (g h : Grants) : Prop where
  heat     : ∀ z, g.heat.get z ≤ h.heat.get z
  fans     : ∀ z, g.fans.get z ≤ h.fans.get z
  curtains : ∀ c, g.curtains.get c = true → h.curtains.get c = true
  levels   : ∀ i, g.levels.get i ≤ h.levels.get i

theorem Grants.Le.refl (g : Grants) : g.Le g := ⟨fun _ => le_rfl, fun _ => le_rfl, fun _ => id, fun _ => le_rfl⟩

theorem Grants.Le.trans {f g h : Grants} (a : f.Le g) (b : g.Le h) : f.Le h :=
  ⟨fun z => (a.heat z).trans (b.heat z), fun z => (a.fans z).trans (b.fans z), fun c on => b.curtains c (a.curtains c on),
    fun i => (a.levels i).trans (b.levels i)⟩

theorem Grants.Le.antisymm {g h : Grants} (a : g.Le h) (b : h.Le g) : g = h := by
  have heat : g.heat = h.heat := Table.ext_get fun z => (a.heat z).antisymm (b.heat z)
  have fans : g.fans = h.fans := Table.ext_get fun z => (a.fans z).antisymm (b.fans z)
  have curtains : g.curtains = h.curtains := Table.ext_get fun c => Bool.eq_iff_iff.mpr ⟨a.curtains c, b.curtains c⟩
  have levels : g.levels = h.levels := Table.ext_get fun i => (a.levels i).antisymm (b.levels i)
  cases g; cases h
  exact Grants.mk.injEq _ _ _ _ _ _ _ _ ▸ ⟨heat, fans, curtains, levels⟩

theorem Grants.le_setHeat {g : Grants} {z : Fin 8} {k : Nat} (h : g.heat.get z ≤ k) :
    g.Le { g with heat := g.heat.set z k } where
  heat y := by rw [Table.get_set]; split <;> simp_all
  fans _ := le_rfl
  curtains _ := id
  levels _ := le_rfl

theorem Grants.setHeat_le {g h : Grants} {z : Fin 8} {k : Nat} (le : g.Le h) (more : k ≤ h.heat.get z) :
    Grants.Le { g with heat := g.heat.set z k } h where
  heat y := by
    rw [Table.get_set]
    split
    · next same => exact same ▸ more
    · exact le.heat y
  fans := le.fans
  curtains := le.curtains
  levels := le.levels

theorem Grants.le_setFans {g : Grants} {z : Fin 8} {k : Nat} (h : g.fans.get z ≤ k) :
    g.Le { g with fans := g.fans.set z k } where
  heat _ := le_rfl
  fans y := by rw [Table.get_set]; split <;> simp_all
  curtains _ := id
  levels _ := le_rfl

theorem Grants.setFans_le {g h : Grants} {z : Fin 8} {k : Nat} (le : g.Le h) (more : k ≤ h.fans.get z) :
    Grants.Le { g with fans := g.fans.set z k } h where
  heat := le.heat
  fans y := by
    rw [Table.get_set]
    split
    · next same => exact same ▸ more
    · exact le.fans y
  curtains := le.curtains
  levels := le.levels

theorem Grants.le_setCurtain (g : Grants) (c : Fin 16) : g.Le { g with curtains := g.curtains.set c true } where
  heat _ := le_rfl
  fans _ := le_rfl
  curtains e on := by rw [Table.get_set]; split <;> simp_all
  levels _ := le_rfl

theorem Grants.setCurtain_le {g h : Grants} {c : Fin 16} (le : g.Le h) (on : h.curtains.get c = true) :
    Grants.Le { g with curtains := g.curtains.set c true } h where
  heat := le.heat
  fans := le.fans
  curtains e := by
    rw [Table.get_set]
    split
    · next same => exact fun _ => same ▸ on
    · exact le.curtains e
  levels := le.levels

/-! ### Totals compared (R121) -/

theorem Table.sum_ofFn_mono {n : Nat} {f g : Fin n → Nat} (h : ∀ i, f i ≤ g i) : (Table.ofFn f).sum ≤ (Table.ofFn g).sum := by
  rw [Table.sum_ofFn, Table.sum_ofFn]
  exact List.sum_le_sum fun i _ => h i

theorem stagesRating_mono (r : Table 4 Nat) {j k : Nat} (h : j ≤ k) : stagesRating r j ≤ stagesRating r k := by
  induction h with
  | refl => exact le_rfl
  | step _ ih => exact ih.trans (by rw [stagesRating_succ]; exact Nat.le_add_right _ _)

theorem Grants.Le.total {g h : Grants} (le : g.Le h) (r : Ratings) : g.total r ≤ h.total r := by
  have heat := Table.sum_ofFn_mono fun z => stagesRating_mono (r.heaters.get z) (le.heat z)
  have fans := Table.sum_ofFn_mono fun z => Nat.mul_le_mul_left (r.fans.get z) (le.fans z)
  have curtains := Table.sum_ofFn_mono (f := fun c => if g.curtains.get c then r.curtains.get c else 0)
    (g := fun c => if h.curtains.get c then r.curtains.get c else 0) fun c => by
      split
      · next on => rw [le.curtains c on]; exact le_rfl
      · exact Nat.zero_le _
  have levels := Table.sum_ofFn_mono fun i => draw_le_draw (r.groups.get i) (le.levels i)
  unfold Grants.total
  omega

/-! ### What a pass may grant (R114, R116 to R120) -/

/-- A heater stage that is off and within its minimum off (R119). -/
def Allocator.barred (a : Allocator) (z : Fin 8) (r : Nat) : Prop := (a.zones.get z).heat < r ∧ (a.zones.get z).time r < a.minOff

/-- The grants so far stand between the reserved class and every request in full, and no stage beyond the committed ones is
off and within its minimum off. -/
structure Round.Within (w : Round) (s : State) : Prop where
  low  : s.budget.reservedGrants.Le w.grants
  high : w.grants.Le s.fullGrants
  free : ∀ z r, (s.budget.zones.get z).committedNow s.budget.minOn < r → r ≤ w.grants.heat.get z → ¬ s.budget.barred z r

theorem State.reserved_le_full (s : State) : s.budget.reservedGrants.Le s.fullGrants where
  heat z := by rw [s.fullGrants_heat, Allocator.reservedGrants_heat]; exact Nat.le_max_left _ _
  fans z := by
    rw [s.fullGrants_fans, Allocator.reservedGrants_fans]
    split
    · exact le_rfl
    · exact Nat.le_max_left _ _
  curtains c on := by simp at on
  levels i := by rw [s.fullGrants_levels, s.budget.reservedGrants_level]; exact Nat.le_max_left _ _

theorem State.reserved_within (s : State) (n : Nat) : Round.Within ⟨s.budget.reservedGrants, n⟩ s where
  low := .refl _
  high := s.reserved_le_full
  free z r above upto := by
    dsimp only at upto
    rw [Allocator.reservedGrants_heat] at upto
    omega

theorem Round.offerCurtain_grows (w : Round) (s : State) (c : Fin 16) : w.grants.Le (w.offerCurtain s c).grants := by
  unfold Round.offerCurtain; dsimp only
  split
  · exact Grants.le_setCurtain _ c
  · exact .refl _

theorem Round.offerFan_grows (w : Round) (a : Allocator) (r : Nat) (z : Fin 8) : w.grants.Le (w.offerFan a r z).grants := by
  unfold Round.offerFan; dsimp only
  split
  · next offered => exact Grants.le_setFans (offered.2.1 ▸ Nat.le_succ _)
  · exact .refl _

theorem Round.offerHeat_grows (w : Round) (a : Allocator) (r : Nat) (z : Fin 8) : w.grants.Le (w.offerHeat a r z).grants := by
  unfold Round.offerHeat; dsimp only
  split
  · next offered => exact Grants.le_setHeat (offered.2.1 ▸ Nat.le_succ _)
  · exact .refl _

theorem Round.Within.offerCurtain {w : Round} (h : w.Within s) (c : Fin 16) : (w.offerCurtain s c).Within s := by
  refine ⟨h.low.trans (w.offerCurtain_grows s c), ?_, ?_⟩ <;> unfold Round.offerCurtain <;> dsimp only <;> split
  · next offered => exact Grants.setCurtain_le h.high ((s.fullGrants_curtains c).mpr offered.1)
  · exact h.high
  · exact h.free
  · exact h.free

theorem Round.Within.offerFan {w : Round} (h : w.Within s) {r : Nat} (stage : r ≤ 3) {z : Fin 8}
    (takesPart : (s.budget.demandOf z).mode ≠ .off) : (w.offerFan s.budget r z).Within s := by
  refine ⟨h.low.trans (w.offerFan_grows s.budget r z), ?_, ?_⟩ <;> unfold Round.offerFan <;> dsimp only <;> split
  · next offered =>
    refine Grants.setFans_le h.high ?_
    rw [s.fullGrants_fans, if_neg takesPart]
    exact le_max_of_le_right (le_min stage offered.1)
  · exact h.high
  · exact h.free
  · exact h.free

theorem Round.Within.offerHeat {w : Round} (h : w.Within s) {r : Nat} (stage : r ≤ 4) {z : Fin 8}
    (takesPart : (s.budget.demandOf z).mode ≠ .off) : (w.offerHeat s.budget r z).Within s := by
  refine ⟨h.low.trans (w.offerHeat_grows s.budget r z), ?_, ?_⟩ <;> unfold Round.offerHeat <;> dsimp only <;> split
  · next offered =>
    refine Grants.setHeat_le h.high ?_
    rw [s.fullGrants_heat, if_neg takesPart]
    exact le_max_of_le_right (le_min stage offered.1)
  · exact h.high
  · next offered =>
    obtain ⟨-, next, free, -⟩ := offered
    intro y k above upto
    rw [Table.get_set] at upto
    split at upto
    · next same =>
      subst same
      rcases upto.lt_or_eq with less | rfl
      · exact h.free z k above (by omega)
      · exact free
    · exact h.free y k above upto
  · exact h.free

theorem Round.Within.offerLight {w : Round} (h : w.Within s) (g : Fin 24) : (w.offerLight s.budget g).Within s := by
  unfold Round.offerLight; dsimp only
  obtain ⟨low, high⟩ := largestLevel_between (s.budget.ratings.groups.get g) (s.budget.groups.get g).floorRequest
    ((s.budget.groups.get g).wanted - (s.budget.groups.get g).floorRequest) w.left
  generalize largestLevel (s.budget.ratings.groups.get g) (s.budget.groups.get g).floorRequest
    ((s.budget.groups.get g).wanted - (s.budget.groups.get g).floorRequest) w.left = top at low high
  have floor : (s.budget.groups.get g).floorRequest ≤ (s.budget.groups.get g).wanted := Nat.le_max_left _ _
  refine ⟨⟨h.low.heat, h.low.fans, h.low.curtains, fun i => ?_⟩, ⟨h.high.heat, h.high.fans, h.high.curtains, fun i => ?_⟩, h.free⟩ <;>
    dsimp only <;> rw [Table.get_set] <;> split
  · next same => rw [← same, s.budget.reservedGrants_level]; exact low
  · exact h.low.levels i
  · next same =>
    rw [← same, s.fullGrants_levels]
    unfold GroupGrant.wanted at high floor
    omega
  · exact h.high.levels i

/-- A thing kept by what is done for each member of a list is kept by what is done for all. -/
theorem foldl_invariant {α β : Type} {P : β → Prop} {f : β → α → β} {l : List α} (step : ∀ b, ∀ a ∈ l, P b → P (f b a)) {b : β}
    (h : P b) : P (l.foldl f b) := by
  induction l generalizing b with
  | nil => exact h
  | cons a l ih =>
    exact ih (fun b x hx => step b x (List.mem_cons_of_mem a hx)) (step b a List.mem_cons_self h)

theorem Round.Within.foldl {α : Type} {f : Round → α → Round} {l : List α}
    (step : ∀ w, ∀ a ∈ l, Round.Within w s → Round.Within (f w a) s) {w : Round} (h : w.Within s) : (l.foldl f w).Within s :=
  foldl_invariant (P := (Round.Within · s)) step h

theorem Round.Within.offerClasses {w : Round} (h : w.Within s) : (s.offerClasses w).Within s := by
  have takesPart {z : Fin 8} := (s.budget.mem_zoneOrder z).mp
  have fans (r : Nat) (hr : r ∈ [1, 2, 3]) : r ≤ 3 := by simp at hr; omega
  have heat (r : Nat) (hr : r ∈ [1, 2, 3, 4]) : r ≤ 4 := by simp at hr; omega
  unfold State.offerClasses; dsimp only
  refine .foldl (fun w g _ kept => kept.offerLight g) ?_
  refine .foldl (fun w r hr kept => .foldl (fun w z hz kept => kept.offerHeat (heat r hr) (takesPart hz)) kept) ?_
  refine .foldl (fun w r hr kept => .foldl (fun w z hz kept => kept.offerFan (fans r hr) (takesPart hz)) kept) ?_
  exact .foldl (fun w c _ kept => kept.offerCurtain c) h

theorem State.passGrants_within (s : State) : Round.Within ⟨s.passGrants, 0⟩ s := by
  unfold State.passGrants; dsimp only
  split
  · exact s.reserved_within 0
  · obtain ⟨low, high, free⟩ := (s.reserved_within (s.budget.capInForce
      - s.budget.reservedGrants.total s.budget.ratings)).offerClasses
    exact ⟨low, high, free⟩

theorem passGrantsWithinRequests_spec : Claims.PassGrantsWithinRequests := by
  intro s g hg
  obtain ⟨low, high, free⟩ := s.passGrants_within
  rw [← hg] at low high free
  have heatLow := low.heat
  have heatHigh := high.heat
  have fansLow := low.fans
  have fansHigh := high.fans
  simp only [Allocator.reservedGrants_heat, Allocator.reservedGrants_fans, s.fullGrants_heat, s.fullGrants_fans] at *
  refine ⟨fun z on => ?_, fun z off => ⟨?_, ?_⟩, fun z => ⟨heatLow z, ?_, fun r above within stage => ?_⟩,
    fun c on => (s.fullGrants_curtains c).mp (high.curtains c on), fun i => ⟨?_, ?_⟩⟩
  · have least := fansLow z
    have most := fansHigh z
    rw [if_neg on] at least most
    exact ⟨least, by omega⟩
  · have most := fansHigh z
    rw [if_pos off] at most
    omega
  · have least := heatLow z
    have most := heatHigh z
    rw [if_pos off] at most
    omega
  · have most := heatHigh z
    split at most <;> omega
  · exact Nat.lt_of_not_le fun granted => free z r stage granted ⟨above, within⟩
  · rw [← s.budget.reservedGrants_level]; exact low.levels i
  · rw [← s.fullGrants_levels]; exact high.levels i

/-! ### The total within the cap (R115, R116, R121) -/

theorem State.passGrants_overcap (h : s.budget.capInForce < s.budget.reservedGrants.total s.budget.ratings) :
    s.passGrants = s.budget.reservedGrants := by
  unfold State.passGrants; dsimp only
  rw [if_pos h]

theorem passStaysUnderTheCap_spec : Claims.PassStaysUnderTheCap := by
  intro s
  obtain ⟨fits, -⟩ := s.passGrants_fit
  have links := s.pass_links
  have reservedAlone := State.passGrants_overcap (s := s)
  have reserved : s.pass.budget.reserved = s.budget.reservedGrants.total s.budget.ratings := rfl
  have total : s.pass.budget.total = s.passGrants.total s.budget.ratings := rfl
  have passes : s.pass.budget.passes = min 4294967295 (s.budget.passes + 1) := rfl
  rw [reserved] at links
  refine ⟨reserved, total, fun above => ?_, fun within => ?_, passes⟩
  · rw [reserved] at above
    rw [total, reserved, reservedAlone above, links, if_pos above, LinkInterface.isSet_raise]
    exact ⟨rfl, by simp⟩
  · rw [reserved] at within
    rw [total]
    exact fits.trans (max_le le_rfl within)

/-! ### What is offered, and when it is granted (R115, R118 to R120) -/

theorem largestLevel_past (rating base n budget : Nat) {k : Nat} (above : largestLevel rating base n budget < k)
    (upto : k ≤ base + n) : budget < draw rating k - draw rating base := by
  obtain ⟨-, -, past⟩ := largestWhere_spec (fun k => draw rating (base + k) - draw rating base ≤ budget) n
  unfold largestLevel at above
  have more := of_decide_eq_false (past (k - base) (by omega) (by omega))
  rw [Nat.add_sub_cancel' (by omega)] at more
  exact Nat.lt_of_not_le more

theorem Round.offerLight_spec (a : Allocator) (w : Round) (g : Fin 24) (x : GroupGrant) (rating : Nat)
    (hx : x = a.groups.get g) (hr : rating = a.ratings.groups.get g) :
    ∃ top, w.offerLight a g = ⟨{ w.grants with levels := w.grants.levels.set g top },
        w.left - (draw rating top - draw rating x.floorRequest)⟩
      ∧ x.floorRequest ≤ top ∧ top ≤ x.wanted ∧ draw rating top ≤ draw rating x.floorRequest + w.left
      ∧ ∀ k, top < k → k ≤ x.wanted → draw rating x.floorRequest + w.left < draw rating k := by
  subst hx hr
  generalize hx : a.groups.get g = x
  generalize hr : a.ratings.groups.get g = rating
  have floor : x.floorRequest ≤ x.wanted := Nat.le_max_left _ _
  have fits := largestLevel_fits rating x.floorRequest (x.wanted - x.floorRequest) w.left
  obtain ⟨low, high⟩ := largestLevel_between rating x.floorRequest (x.wanted - x.floorRequest) w.left
  refine ⟨largestLevel rating x.floorRequest (x.wanted - x.floorRequest) w.left, ?_, low, by omega, by omega,
    fun k above upto => ?_⟩
  · rw [← hx, ← hr]
    rfl
  · have more := largestLevel_past _ _ _ _ above (by omega)
    omega

theorem stageRating_get (r : Table 4 Nat) (i : Fin 4) : stageRating r (i.val + 1) = r.get i := by
  have inside : i.val < r.rows.length := by rw [r.size]; exact i.isLt
  unfold stageRating nth1
  rw [Nat.add_sub_cancel, List.headD_eq_head?_getD, List.head?_drop, List.getElem?_eq_getElem inside]
  rfl

theorem ZoneGrant.time_get (g : ZoneGrant) (i : Fin 4) : g.time (i.val + 1) = g.times.get i := stageRating_get g.times i

theorem passOffersInOrder_spec : Claims.PassOffersInOrder := by
  refine ⟨fun s a base w ha hb hw => ?_, fun s w c n hn => by rw [hn]; rfl, fun a w r n z hn => by rw [hn]; rfl,
    fun a w i n z hn => ?_, fun a w v g x rating hv hx hr => ?_⟩
  · subst ha
    rw [← s.budget.reservedGrants_eq] at hb
    subst hb hw
    unfold State.passGrants; dsimp only
    rfl
  · unfold Round.offerHeat; dsimp only
    rw [stageRating_get, ZoneGrant.time_get, ← hn]
    refine if_congr ?_ rfl rfl
    rw [Nat.lt_succ_iff, Nat.add_right_cancel_iff]
  · obtain ⟨top, offered, low, high, fits, past⟩ := w.offerLight_spec a g x rating hx hr
    have less := draw_le_draw rating low
    rw [hv, offered]
    dsimp only
    rw [Table.get_set_same]
    exact ⟨rfl, low, high, fits, past, by omega⟩

end Sys2Proof.Machine
end

section
/-! SUPPORT. A pass grants every request in full where all of them fit the cap, and what a pass writes (R112, R115 to R121, R127,
R153). -/

namespace Sys2Proof.Machine

variable {s t u : State}

/-! ### Totals with one more load (R121) -/

theorem Table.add_le_sum_ofFn {n : Nat} {f g : Fin n → Nat} (i : Fin n) (d : Nat) (row : g i + d ≤ f i)
    (others : ∀ j, i ≠ j → f j = g j) : (Table.ofFn g).sum + d ≤ (Table.ofFn f).sum := by
  have split (h : Fin n → Nat) : (Table.ofFn h).sum = h i + ∑ j ∈ Finset.univ.erase i, h j :=
    List.sum_ofFn.trans (Finset.add_sum_erase _ h (Finset.mem_univ i)).symm
  have rest : ∑ j ∈ Finset.univ.erase i, f j = ∑ j ∈ Finset.univ.erase i, g j :=
    Finset.sum_congr rfl fun j hj => others j (Finset.ne_of_mem_erase hj).symm
  rw [split f, split g]
  omega

theorem Grants.add_total_heat (g : Grants) (r : Ratings) (z : Fin 8) {k : Nat} (next : g.heat.get z + 1 = k) :
    g.total r + stageRating (r.heaters.get z) k ≤ Grants.total { g with heat := g.heat.set z k } r := by
  have row := Table.add_le_sum_ofFn (f := fun y => stagesRating (r.heaters.get y) ((g.heat.set z k).get y))
    (g := fun y => stagesRating (r.heaters.get y) (g.heat.get y)) z (stageRating (r.heaters.get z) k)
    (by simp [← next, stagesRating_succ]) (fun j hj => by simp [hj])
  unfold Grants.total; dsimp only
  omega

theorem Grants.add_total_fans (g : Grants) (r : Ratings) (z : Fin 8) {k : Nat} (next : g.fans.get z + 1 = k) :
    g.total r + r.fans.get z ≤ Grants.total { g with fans := g.fans.set z k } r := by
  have row := Table.add_le_sum_ofFn (f := fun y => r.fans.get y * (g.fans.set z k).get y)
    (g := fun y => r.fans.get y * g.fans.get y) z (r.fans.get z) (by simp [← next, Nat.mul_succ]) (fun j hj => by simp [hj])
  unfold Grants.total; dsimp only
  omega

theorem Grants.add_total_curtain (g : Grants) (r : Ratings) {c : Fin 16} (off : g.curtains.get c = false) :
    g.total r + r.curtains.get c ≤ Grants.total { g with curtains := g.curtains.set c true } r := by
  have row := Table.add_le_sum_ofFn (f := fun y => if (g.curtains.set c true).get y then r.curtains.get y else 0)
    (g := fun y => if g.curtains.get y then r.curtains.get y else 0) c (r.curtains.get c) (by simp [off])
    (fun j hj => by simp [hj])
  unfold Grants.total; dsimp only
  omega

theorem Grants.add_total_level (g : Grants) (r : Ratings) (x : Fin 24) {k d : Nat}
    (h : draw (r.groups.get x) (g.levels.get x) + d ≤ draw (r.groups.get x) k) :
    g.total r + d ≤ Grants.total { g with levels := g.levels.set x k } r := by
  have row := Table.add_le_sum_ofFn (f := fun y => draw (r.groups.get y) ((g.levels.set x k).get y))
    (g := fun y => draw (r.groups.get y) (g.levels.get y)) x d (by simpa using h) (fun j hj => by simp [hj])
  unfold Grants.total; dsimp only
  omega

/-! ### Room for every request (R115) -/

/-- The grants so far stand within the requests, and what is left of the cap has room for the rest of them. -/
structure Round.Roomy (w : Round) (s : State) : Prop where
  within : w.Within s
  room   : s.budget.capInForce ≤ w.grants.total s.budget.ratings + w.left

/-- Grants within the requests leave room for a load that takes them no further than the requests. -/
theorem Round.Roomy.fits {w : Round} (h : w.Roomy s) (cap : s.fullGrants.total s.budget.ratings ≤ s.budget.capInForce)
    {g : Grants} {n : Nat} (more : w.grants.total s.budget.ratings + n ≤ g.total s.budget.ratings)
    (high : g.Le s.fullGrants) : n ≤ w.left := by
  have most := high.total s.budget.ratings
  have room := h.room
  omega

/-- A list of loads offered one after another, each once: what is done for one leaves it done, the loads still to come as they
were, and those done before as they are. -/
theorem foldl_each {α β : Type} {P : β → Prop} {fresh done : α → β → Prop} {f : β → α → β}
    (step : ∀ b a, P b → fresh a b → P (f b a) ∧ done a (f b a))
    (freshKept : ∀ b a x, a ≠ x → fresh x b → fresh x (f b a)) (doneKept : ∀ b a x, a ≠ x → done x b → done x (f b a))
    {l : List α} (once : l.Nodup) {b : β} (h : P b) (start : ∀ a ∈ l, fresh a b) :
    P (l.foldl f b) ∧ ∀ a ∈ l, done a (l.foldl f b) := by
  have others (l : List α) (b : β) (x : α) (hx : x ∉ l) (hd : done x b) : done x (l.foldl f b) :=
    foldl_invariant (P := done x) (fun b a ha hd => doneKept b a x (fun same => hx (same ▸ ha)) hd) hd
  induction l generalizing b with
  | nil => exact ⟨h, fun _ none => absurd none List.not_mem_nil⟩
  | cons a l ih =>
    obtain ⟨new, once⟩ := List.nodup_cons.mp once
    obtain ⟨kept, doneA⟩ := step b a h (start a List.mem_cons_self)
    obtain ⟨all, doneL⟩ := ih once kept fun x hx => freshKept b a x (fun same => new (same ▸ hx)) (start x (List.mem_cons_of_mem a hx))
    refine ⟨all, fun x hx => ?_⟩
    rcases List.mem_cons.mp hx with rfl | hx
    · exact others l _ x new doneA
    · exact doneL x hx

/-! ### The curtains (R118) -/

theorem Round.offerCurtain_others (w : Round) (s : State) {c e : Fin 16} (h : c ≠ e) :
    (w.offerCurtain s c).grants.curtains.get e = w.grants.curtains.get e := by
  unfold Round.offerCurtain; dsimp only
  split
  · exact Table.get_set_other _ _ _ _ h
  · rfl

theorem Round.Roomy.offerCurtain {w : Round} (h : w.Roomy s) (cap : s.fullGrants.total s.budget.ratings ≤ s.budget.capInForce)
    {c : Fin 16} (off : w.grants.curtains.get c = false) : (w.offerCurtain s c).Roomy s
      ∧ (s.fullGrants.curtains.get c = true → (w.offerCurtain s c).grants.curtains.get c = true) := by
  have more := w.grants.add_total_curtain s.budget.ratings off
  have room := h.room
  have within := h.within.offerCurtain c
  by_cases wanted : (s.doors.curtains.get c).state = .idle
  · have stands : w.offerCurtain s c = w := if_neg fun offered => offered.1 wanted
    rw [stands]
    exact ⟨h, fun on => absurd wanted ((s.fullGrants_curtains c).mp on)⟩
  · have fits := h.fits cap more (Grants.setCurtain_le h.within.high ((s.fullGrants_curtains c).mpr wanted))
    have granted : w.offerCurtain s c = ⟨{ w.grants with curtains := w.grants.curtains.set c true },
        w.left - s.budget.ratings.curtains.get c⟩ := if_pos ⟨wanted, fits⟩
    rw [granted] at within ⊢
    exact ⟨⟨within, by dsimp only; omega⟩, fun _ => Table.get_set_same _ _ _⟩

theorem Round.Roomy.offerCurtains {w : Round} (h : w.Roomy s) (cap : s.fullGrants.total s.budget.ratings ≤ s.budget.capInForce)
    (off : ∀ c, w.grants.curtains.get c = false) : ((indices 16).foldl (fun w c => w.offerCurtain s c) w).Roomy s
      ∧ ∀ c, s.fullGrants.curtains.get c = true
        → ((indices 16).foldl (fun w c => w.offerCurtain s c) w).grants.curtains.get c = true := by
  obtain ⟨roomy, granted⟩ := foldl_each (P := (Round.Roomy · s)) (fresh := fun c w => w.grants.curtains.get c = false)
    (done := fun c w => s.fullGrants.curtains.get c = true → w.grants.curtains.get c = true)
    (fun w c h off => h.offerCurtain cap off) (fun w c e ne off => (w.offerCurtain_others s ne).trans off)
    (fun w c e ne done on => (w.offerCurtain_others s ne).trans (done on)) (List.nodup_finRange 16) h (fun c _ => off c)
  exact ⟨roomy, fun c => granted c (mem_indices c)⟩

/-! ### The fan stages (R118) -/

/-- Every zone holds its fan stages asked for up to stage `k`. -/
def Round.FansUpTo (w : Round) (s : State) (k : Nat) : Prop := ∀ z, min k (s.fullGrants.fans.get z) ≤ w.grants.fans.get z

theorem Round.Roomy.offerFan {w : Round} (h : w.Roomy s) (cap : s.fullGrants.total s.budget.ratings ≤ s.budget.capInForce)
    {k : Nat} (stage : k < 3) (upto : w.FansUpTo s k) {z : Fin 8} (takesPart : (s.budget.demandOf z).mode ≠ .off) :
    (w.offerFan s.budget (k + 1) z).Roomy s
      ∧ min (k + 1) (s.fullGrants.fans.get z) ≤ (w.offerFan s.budget (k + 1) z).grants.fans.get z := by
  have room := h.room
  have low := h.within.low.fans z
  have reached := upto z
  have within := h.within.offerFan (r := k + 1) stage takesPart
  have full := s.fullGrants_fans z
  rw [Allocator.reservedGrants_fans, if_neg takesPart] at low
  rw [if_neg takesPart] at full
  by_cases next : k < s.fullGrants.fans.get z ∧ w.grants.fans.get z = k
  · obtain ⟨more, now⟩ := next
    have total := w.grants.add_total_fans s.budget.ratings z (k := k + 1) (by rw [now])
    have fits := h.fits cap total (Grants.setFans_le h.within.high more)
    have granted : w.offerFan s.budget (k + 1) z = ⟨{ w.grants with fans := w.grants.fans.set z (k + 1) },
        w.left - s.budget.ratings.fans.get z⟩ := if_pos ⟨by omega, by rw [now], fits⟩
    rw [granted] at within ⊢
    exact ⟨⟨within, by dsimp only; omega⟩, (min_le_left _ _).trans (Table.get_set_same _ _ _).ge⟩
  · have stands : w.offerFan s.budget (k + 1) z = w := if_neg fun ⟨asked, last, _⟩ => by omega
    rw [stands]
    exact ⟨h, by omega⟩

theorem Round.FansUpTo.grows {w v : Round} {k : Nat} (h : w.FansUpTo s k) (more : w.grants.Le v.grants) : v.FansUpTo s k :=
  fun z => (h z).trans (more.fans z)

theorem Round.Roomy.fanRound {w : Round} (h : w.Roomy s) (cap : s.fullGrants.total s.budget.ratings ≤ s.budget.capInForce)
    {k : Nat} (stage : k < 3) (upto : w.FansUpTo s k) :
    (s.budget.zoneOrder.foldl (fun w z => w.offerFan s.budget (k + 1) z) w).Roomy s
      ∧ (s.budget.zoneOrder.foldl (fun w z => w.offerFan s.budget (k + 1) z) w).FansUpTo s (k + 1) := by
  obtain ⟨⟨roomy, -⟩, reached⟩ := foldl_each (P := fun w => Round.Roomy w s ∧ w.FansUpTo s k)
    (fresh := fun z _ => (s.budget.demandOf z).mode ≠ .off)
    (done := fun z w => min (k + 1) (s.fullGrants.fans.get z) ≤ w.grants.fans.get z)
    (fun w z ⟨h, upto⟩ takesPart =>
      have ⟨roomy, reached⟩ := h.offerFan cap stage upto takesPart
      ⟨⟨roomy, upto.grows (w.offerFan_grows s.budget (k + 1) z)⟩, reached⟩)
    (fun _ _ _ _ => id) (fun w z y _ reached => reached.trans ((w.offerFan_grows s.budget (k + 1) z).fans y))
    s.budget.zoneOrder_nodup ⟨h, upto⟩ fun z => (s.budget.mem_zoneOrder z).mp
  refine ⟨roomy, fun z => ?_⟩
  by_cases off : (s.budget.demandOf z).mode = .off
  · rw [s.fullGrants_fans, if_pos off]
    exact (min_le_right _ _).trans (Nat.zero_le _)
  · exact reached z ((s.budget.mem_zoneOrder z).mpr off)

theorem Round.offerFans_grows (w : Round) (a : Allocator) (l : List Nat) (zs : List (Fin 8)) :
    w.grants.Le (l.foldl (fun w r => zs.foldl (fun w z => w.offerFan a r z) w) w).grants :=
  foldl_keeps (fun w v : Round => w.grants.Le v.grants) (fun _ => .refl _) .trans _ (fun w r =>
    foldl_keeps (fun w v : Round => w.grants.Le v.grants) (fun _ => .refl _) .trans _
      (fun w z => w.offerFan_grows a r z) zs w) l w

theorem Round.Within.fans_full {w : Round} (h : w.Within s) (upto : w.FansUpTo s 3) (z : Fin 8) :
    s.fullGrants.fans.get z ≤ w.grants.fans.get z := by
  have low := h.low.fans z
  have reached := upto z
  rw [Allocator.reservedGrants_fans] at low
  have full := s.fullGrants_fans z
  by_cases off : (s.budget.demandOf z).mode = .off
  · rw [if_pos off] at full
    omega
  · rw [if_neg off] at low full
    omega

theorem Round.Roomy.offerFans {w : Round} (h : w.Roomy s) (cap : s.fullGrants.total s.budget.ratings ≤ s.budget.capInForce) :
    ([1, 2, 3].foldl (fun w r => s.budget.zoneOrder.foldl (fun w z => w.offerFan s.budget r z) w) w).Roomy s
      ∧ ∀ z, s.fullGrants.fans.get z
        ≤ ([1, 2, 3].foldl (fun w r => s.budget.zoneOrder.foldl (fun w z => w.offerFan s.budget r z) w) w).grants.fans.get z := by
  have start : w.FansUpTo s 0 := fun z => (min_le_left _ _).trans (Nat.zero_le _)
  obtain ⟨roomy1, upto1⟩ := h.fanRound cap (by decide) start
  obtain ⟨roomy2, upto2⟩ := roomy1.fanRound cap (by decide) upto1
  obtain ⟨roomy3, upto3⟩ := roomy2.fanRound cap (by decide) upto2
  exact ⟨roomy3, roomy3.within.fans_full upto3⟩

/-! ### The heater stages (R119) -/

/-- Every zone holds its heater stages asked for up to stage `k`. -/
def Round.HeatUpTo (w : Round) (s : State) (k : Nat) : Prop := ∀ z, min k (s.fullGrants.heat.get z) ≤ w.grants.heat.get z

theorem Round.HeatUpTo.grows {w v : Round} {k : Nat} (h : w.HeatUpTo s k) (more : w.grants.Le v.grants) : v.HeatUpTo s k :=
  fun z => (h z).trans (more.heat z)

/-- No heater stage asked for is off and within its minimum off. -/
def State.Unbarred (s : State) : Prop := ∀ z r, r ≤ s.fullGrants.heat.get z → ¬ s.budget.barred z r

theorem Round.Roomy.offerHeat {w : Round} (h : w.Roomy s) (cap : s.fullGrants.total s.budget.ratings ≤ s.budget.capInForce)
    (free : s.Unbarred) {k : Nat} (stage : k < 4) (upto : w.HeatUpTo s k) {z : Fin 8}
    (takesPart : (s.budget.demandOf z).mode ≠ .off) : (w.offerHeat s.budget (k + 1) z).Roomy s
      ∧ min (k + 1) (s.fullGrants.heat.get z) ≤ (w.offerHeat s.budget (k + 1) z).grants.heat.get z := by
  have room := h.room
  have low := h.within.low.heat z
  have reached := upto z
  have within := h.within.offerHeat (r := k + 1) stage takesPart
  have full := s.fullGrants_heat z
  rw [Allocator.reservedGrants_heat] at low
  rw [if_neg takesPart] at full
  by_cases next : k < s.fullGrants.heat.get z ∧ w.grants.heat.get z = k
  · obtain ⟨more, now⟩ := next
    have total := w.grants.add_total_heat s.budget.ratings z (k := k + 1) (by rw [now])
    have fits := h.fits cap total (Grants.setHeat_le h.within.high more)
    have granted : w.offerHeat s.budget (k + 1) z = ⟨{ w.grants with heat := w.grants.heat.set z (k + 1) },
        w.left - stageRating (s.budget.ratings.heaters.get z) (k + 1)⟩ :=
      if_pos ⟨by omega, by rw [now], free z (k + 1) more, fits⟩
    rw [granted] at within ⊢
    exact ⟨⟨within, by dsimp only; omega⟩, (min_le_left _ _).trans (Table.get_set_same _ _ _).ge⟩
  · have stands : w.offerHeat s.budget (k + 1) z = w := if_neg fun ⟨asked, last, _⟩ => by omega
    rw [stands]
    exact ⟨h, by omega⟩

theorem Round.Roomy.heatRound {w : Round} (h : w.Roomy s) (cap : s.fullGrants.total s.budget.ratings ≤ s.budget.capInForce)
    (free : s.Unbarred) {k : Nat} (stage : k < 4) (upto : w.HeatUpTo s k) :
    (s.budget.zoneOrder.foldl (fun w z => w.offerHeat s.budget (k + 1) z) w).Roomy s
      ∧ (s.budget.zoneOrder.foldl (fun w z => w.offerHeat s.budget (k + 1) z) w).HeatUpTo s (k + 1) := by
  obtain ⟨⟨roomy, grown⟩, reached⟩ := foldl_each (P := fun w => Round.Roomy w s ∧ w.HeatUpTo s k)
    (fresh := fun z _ => (s.budget.demandOf z).mode ≠ .off)
    (done := fun z w => min (k + 1) (s.fullGrants.heat.get z) ≤ w.grants.heat.get z)
    (fun w z ⟨h, upto⟩ takesPart =>
      have ⟨roomy, reached⟩ := h.offerHeat cap free stage upto takesPart
      ⟨⟨roomy, upto.grows (w.offerHeat_grows s.budget (k + 1) z)⟩, reached⟩)
    (fun _ _ _ _ => id) (fun w z y _ reached => reached.trans ((w.offerHeat_grows s.budget (k + 1) z).heat y))
    s.budget.zoneOrder_nodup ⟨h, upto⟩ fun z => (s.budget.mem_zoneOrder z).mp
  refine ⟨roomy, fun z => ?_⟩
  by_cases off : (s.budget.demandOf z).mode = .off
  · have low := roomy.within.low.heat z
    rw [Allocator.reservedGrants_heat] at low
    rw [s.fullGrants_heat, if_pos off]
    exact (min_le_right _ _).trans (max_le low (Nat.zero_le _))
  · exact reached z ((s.budget.mem_zoneOrder z).mpr off)

theorem Round.Within.heat_full {w : Round} (h : w.Within s) (upto : w.HeatUpTo s 4) (z : Fin 8) :
    s.fullGrants.heat.get z ≤ w.grants.heat.get z := by
  have low := h.low.heat z
  have reached := upto z
  rw [Allocator.reservedGrants_heat] at low
  have full := s.fullGrants_heat z
  split at full <;> omega

theorem Round.offerHeats_grows (w : Round) (a : Allocator) (l : List Nat) (zs : List (Fin 8)) :
    w.grants.Le (l.foldl (fun w r => zs.foldl (fun w z => w.offerHeat a r z) w) w).grants :=
  foldl_keeps (fun w v : Round => w.grants.Le v.grants) (fun _ => .refl _) .trans _ (fun w r =>
    foldl_keeps (fun w v : Round => w.grants.Le v.grants) (fun _ => .refl _) .trans _
      (fun w z => w.offerHeat_grows a r z) zs w) l w

theorem Round.Roomy.offerHeats {w : Round} (h : w.Roomy s) (cap : s.fullGrants.total s.budget.ratings ≤ s.budget.capInForce)
    (free : s.Unbarred) :
    ([1, 2, 3, 4].foldl (fun w r => s.budget.zoneOrder.foldl (fun w z => w.offerHeat s.budget r z) w) w).Roomy s
      ∧ ∀ z, s.fullGrants.heat.get z
        ≤ ([1, 2, 3, 4].foldl (fun w r => s.budget.zoneOrder.foldl (fun w z => w.offerHeat s.budget r z) w) w).grants.heat.get z := by
  have start : w.HeatUpTo s 0 := fun z => (min_le_left _ _).trans (Nat.zero_le _)
  obtain ⟨roomy1, upto1⟩ := h.heatRound cap free (by decide) start
  obtain ⟨roomy2, upto2⟩ := roomy1.heatRound cap free (by decide) upto1
  obtain ⟨roomy3, upto3⟩ := roomy2.heatRound cap free (by decide) upto2
  obtain ⟨roomy4, upto4⟩ := roomy3.heatRound cap free (by decide) upto3
  exact ⟨roomy4, roomy4.within.heat_full upto4⟩

/-! ### The lamp groups (R120) -/

theorem Round.Roomy.offerLight {w : Round} (h : w.Roomy s) (cap : s.fullGrants.total s.budget.ratings ≤ s.budget.capInForce)
    {g : Fin 24} (floor : w.grants.levels.get g = (s.budget.groups.get g).floorRequest) : (w.offerLight s.budget g).Roomy s
      ∧ (w.offerLight s.budget g).grants = { w.grants with levels := w.grants.levels.set g (s.fullGrants.levels.get g) } := by
  have room := h.room
  have within := h.within.offerLight g
  obtain ⟨top, offered, low, high, fits, past⟩ := w.offerLight_spec s.budget g _ _ rfl rfl
  have full := s.fullGrants_levels g
  have rises := draw_le_draw (s.budget.ratings.groups.get g) low
  have whole : s.fullGrants.levels.get g ≤ top := by
    have level : (s.budget.groups.get g).wanted = s.fullGrants.levels.get g := full.symm
    by_contra short
    have more := past _ (Nat.lt_of_not_le short) level.ge
    have ascends := draw_le_draw (s.budget.ratings.groups.get g) (Nat.le_of_not_le short)
    have total := w.grants.add_total_level s.budget.ratings g (k := s.fullGrants.levels.get g)
      (d := draw (s.budget.ratings.groups.get g) (s.fullGrants.levels.get g)
        - draw (s.budget.ratings.groups.get g) (s.budget.groups.get g).floorRequest) (by rw [floor]; omega)
    have room := h.fits cap total ⟨h.within.high.heat, h.within.high.fans, h.within.high.curtains, fun i => by
      dsimp only
      rw [Table.get_set]
      split
      · next same => rw [same]
      · exact h.within.high.levels i⟩
    omega
  obtain rfl : top = s.fullGrants.levels.get g := whole.antisymm' (full.symm ▸ high)
  have total := w.grants.add_total_level s.budget.ratings g (k := s.fullGrants.levels.get g)
    (d := draw (s.budget.ratings.groups.get g) (s.fullGrants.levels.get g)
      - draw (s.budget.ratings.groups.get g) (s.budget.groups.get g).floorRequest) (by rw [floor]; omega)
  rw [offered] at within ⊢
  exact ⟨⟨within, by dsimp only; omega⟩, rfl⟩

/-- Where every request fits, the fifth class takes grants that hold all but the lamp levels in full to all requests in full. -/
theorem Round.Roomy.offerLights {w : Round} (h : w.Roomy s) (cap : s.fullGrants.total s.budget.ratings ≤ s.budget.capInForce)
    (floors : ∀ g, w.grants.levels.get g = (s.budget.groups.get g).floorRequest)
    (heat : ∀ z, s.fullGrants.heat.get z ≤ w.grants.heat.get z) (fans : ∀ z, s.fullGrants.fans.get z ≤ w.grants.fans.get z)
    (curtains : ∀ c, s.fullGrants.curtains.get c = true → w.grants.curtains.get c = true) :
    ((indices 24).foldl (fun w g => w.offerLight s.budget g) w).grants = s.fullGrants := by
  have other (w : Round) (g i : Fin 24) (ne : g ≠ i) :
      (w.offerLight s.budget g).grants.levels.get i = w.grants.levels.get i := Table.get_set_other _ _ _ _ ne
  obtain ⟨⟨roomy, heat, fans, curtains⟩, levels⟩ := foldl_each
    (P := fun v => Round.Roomy v s ∧ (∀ z, s.fullGrants.heat.get z ≤ v.grants.heat.get z)
      ∧ (∀ z, s.fullGrants.fans.get z ≤ v.grants.fans.get z)
      ∧ ∀ c, s.fullGrants.curtains.get c = true → v.grants.curtains.get c = true)
    (fresh := fun g v => v.grants.levels.get g = (s.budget.groups.get g).floorRequest)
    (done := fun g v => v.grants.levels.get g = s.fullGrants.levels.get g)
    (fun v g ⟨h, heat, fans, curtains⟩ floor => by
      obtain ⟨roomy, granted⟩ := h.offerLight cap floor
      refine ⟨⟨roomy, ?_⟩, ?_⟩ <;> rw [granted]
      · exact ⟨heat, fans, curtains⟩
      · exact Table.get_set_same _ _ _)
    (fun v g i ne floor => (other v g i ne).trans floor) (fun v g i ne done => (other v g i ne).trans done)
    (List.nodup_finRange 24) ⟨h, heat, fans, curtains⟩ (fun g _ => floors g)
  exact roomy.within.high.antisymm ⟨heat, fans, curtains, fun g => (levels g (mem_indices g)).ge⟩

/-! ### All of them (R115) -/

theorem Round.offers_levels (w : Round) (s : State) :
    ([1, 2, 3, 4].foldl (fun w r => s.budget.zoneOrder.foldl (fun w z => w.offerHeat s.budget r z) w)
      ([1, 2, 3].foldl (fun w r => s.budget.zoneOrder.foldl (fun w z => w.offerFan s.budget r z) w)
        ((indices 16).foldl (fun w c => w.offerCurtain s c) w))).grants.levels = w.grants.levels := by
  have curtain (v : Round) (c : Fin 16) : (v.offerCurtain s c).grants.levels = v.grants.levels := by
    unfold Round.offerCurtain; dsimp only; split <;> rfl
  have fan (v : Round) (r : Nat) (z : Fin 8) : (v.offerFan s.budget r z).grants.levels = v.grants.levels := by
    unfold Round.offerFan; dsimp only; split <;> rfl
  have heat (v : Round) (r : Nat) (z : Fin 8) : (v.offerHeat s.budget r z).grants.levels = v.grants.levels := by
    unfold Round.offerHeat; dsimp only; split <;> rfl
  have same {α : Type} {f : Round → α → Round} {l : List α} {v : Round} (step : ∀ v, ∀ a ∈ l,
      v.grants.levels = w.grants.levels → (f v a).grants.levels = w.grants.levels)
      (h : v.grants.levels = w.grants.levels) : (l.foldl f v).grants.levels = w.grants.levels :=
    foldl_invariant (P := fun v : Round => v.grants.levels = w.grants.levels) step h
  exact same (fun v r _ h => same (fun v z _ h => (heat v r z).trans h) h)
    (same (fun v r _ h => same (fun v z _ h => (fan v r z).trans h) h) (same (fun v c _ h => (curtain v c).trans h) rfl))

theorem State.passGrants_full (cap : s.fullGrants.total s.budget.ratings ≤ s.budget.capInForce) (free : s.Unbarred) :
    s.passGrants = s.fullGrants := by
  have reserved := s.reserved_le_full.total s.budget.ratings
  have start : Round.Roomy ⟨s.budget.reservedGrants, s.budget.capInForce - s.budget.reservedGrants.total s.budget.ratings⟩ s :=
    ⟨s.reserved_within _, by dsimp only; omega⟩
  have levels := Round.offers_levels ⟨s.budget.reservedGrants, s.budget.capInForce - s.budget.reservedGrants.total s.budget.ratings⟩ s
  obtain ⟨roomy2, curtains⟩ := start.offerCurtains cap fun c => s.budget.reservedGrants_curtains c
  obtain ⟨roomy3, fans⟩ := roomy2.offerFans cap
  obtain ⟨roomy4, heat⟩ := roomy3.offerHeats cap free
  have grows3 := Round.offerFans_grows ((indices 16).foldl (fun w c => w.offerCurtain s c)
    ⟨s.budget.reservedGrants, s.budget.capInForce - s.budget.reservedGrants.total s.budget.ratings⟩) s.budget [1, 2, 3]
    s.budget.zoneOrder
  have grows4 := Round.offerHeats_grows ([1, 2, 3].foldl (fun w r => s.budget.zoneOrder.foldl (fun w z => w.offerFan s.budget r z) w)
    ((indices 16).foldl (fun w c => w.offerCurtain s c)
    ⟨s.budget.reservedGrants, s.budget.capInForce - s.budget.reservedGrants.total s.budget.ratings⟩)) s.budget [1, 2, 3, 4]
    s.budget.zoneOrder
  unfold State.passGrants; dsimp only
  rw [if_neg (by omega)]
  exact roomy4.offerLights cap (fun g => by rw [levels]; exact s.budget.reservedGrants_level g) heat
    (fun z => (fans z).trans (grows4.fans z)) fun c on => grows4.curtains c (grows3.curtains c (curtains c on))

theorem passGrantsAllThatFits_spec : Claims.PassGrantsAllThatFits := by
  intro s a g ha hg cap free
  have full : g = s.fullGrants := by
    rw [hg, ha]
    rfl
  rw [ha] at cap free
  rw [full] at cap free ⊢
  exact State.passGrants_full cap fun z r asked ⟨off, early⟩ => absurd (free z r off asked) (Nat.not_le.mpr early)

/-! ### What a pass writes (R112, R119, R121, R127, R153) -/

theorem ZoneGrant.setHeat_times (x : ZoneGrant) (k : Nat) : (x.setHeat k).times
    = Table.ofFn fun i => if (i.val < x.heat ↔ i.val < k) then x.times.get i else 0 := by
  refine Table.ext_get fun i => ?_
  unfold ZoneGrant.setHeat
  rw [Table.get_mapIdx, Table.get_ofFn]
  by_cases old : i.val < x.heat <;> by_cases new : i.val < k <;> simp [old, new]

theorem State.pass_line (s : State) (l : Fin 192) : s.pass.lines.lines.get l
    = (s.lines.lines.get l).following (s.pass.functionOn (s.lines.lines.get l).config.binding) :=
  State.followGrants_line _ l

theorem State.pass_zone (s : State) (z : Fin 8) : s.pass.budget.zones.get z
    = { (s.budget.zones.get z).setHeat (s.passGrants.heat.get z) with
        fans := s.passGrants.fans.get z, committed := (s.budget.zones.get z).committedNow s.budget.minOn
        floorFans := s.budget.floorFansNow z } := s.passBudget_zone z

theorem State.pass_curtain (s : State) (c : Fin 16) : s.pass.doors.curtains.get c
    = { s.doors.curtains.get c with granted := s.passGrants.curtains.get c } := Table.get_mapIdx _ _ _

/-- A pass writes the grant table, the curtains' granted fields, the latches and OVERCAP. -/
theorem State.pass_eq (s : State) : s.pass = { s with
    budget := s.pass.budget, doors := { s.doors with curtains := s.pass.doors.curtains }
    lines := { s.lines with lines := s.pass.lines.lines }, links := s.pass.links } := by
  unfold State.pass; dsimp only
  generalize s.passBudget = a
  generalize s.passGrants = g
  rfl

theorem State.passBudget_eq (s : State) : s.passBudget = { s.budget with
    zones := s.passBudget.zones, groups := s.passBudget.groups
    reserved := s.budget.reservedGrants.total s.budget.ratings, total := s.passGrants.total s.budget.ratings
    passes := min 4294967295 (s.budget.passes + 1) } := by
  unfold State.passBudget; dsimp only
  generalize s.passGrants = g
  rfl

theorem passWritesTheTable_spec : Claims.PassWritesTheTable := by
  intro s t a g base ha hg ht hb
  rw [ha, ← s.budget.reservedGrants_eq] at hb
  have zone := s.pass_zone
  have curtain := s.pass_curtain
  have line := s.pass_line
  have group (i : Fin 24) : s.pass.budget.groups.get i = _ := s.passBudget_group i
  have whole := s.pass_eq
  have budget : s.pass.budget = _ := s.passBudget_eq
  have links := s.pass_links
  have reserved : s.pass.budget.reserved = s.budget.reservedGrants.total s.budget.ratings := rfl
  rw [reserved] at links
  rw [← s.pass_budget] at budget
  rw [← ht, ← hg] at zone curtain group
  rw [← ht] at whole line links
  rw [← ht, ← hg] at budget
  rw [ha, hb]
  refine ⟨fun z x hx => ?_, group, curtain, fun l x hx => ?_, ?_⟩
  · rw [zone, hx, ← ZoneGrant.setHeat_times, Allocator.reservedGrants_heat, Allocator.reservedGrants_fans]
    rfl
  · rw [line, ← hx]
    cases mode : x.config.mode with
    | input =>
      unfold Line.following
      rw [mode]
    | output =>
      have heat (z : Fin 8) : (t.budget.zones.get z).heat = g.heat.get z := by rw [zone]; rfl
      have fans (z : Fin 8) : (t.budget.zones.get z).fans = g.fans.get z := by rw [zone]
      have granted (c : Fin 16) : (t.doors.curtains.get c).granted = g.curtains.get c := by rw [curtain]
      unfold Line.following State.functionOn
      rw [mode]
      cases x.config.binding <;> simp only [heat, fans, granted]
  · exact whole.trans (by rw [links, budget])

/-- Settles O49. -/
theorem allocationPass : Obligations.AllocationPass :=
  ⟨passStaysUnderTheCap_spec, passGrantsWithinRequests_spec, passOffersInOrder_spec, passGrantsAllThatFits_spec,
    zoneOrder_spec, passFigures_spec, passWritesTheTable_spec⟩

end Sys2Proof.Machine
end

section
/-! SUPPORT. The supervisor cap's calls and its expiry, and the pass with the taking of its grants that follows them (R106 to R109,
R115, R121, R139, R140). -/

namespace Sys2Proof.Machine

variable {s t u : State} {k : CallKind} {o : Origin}

/-! ### The taking of changed grants (R121, R140) -/

theorem Handed.settle_of_nil {h : Handed} (none : h.2 = []) : h.settle = h.1 := by
  unfold Handed.settle
  rw [none]
  rfl

/-- A group whose new record makes the request last handed is put as it is. -/
theorem Group.requesting_handed {x : Group} {sc : Scene} {g : Fin 24} (none : x.handed sc g = none) : x.requesting sc = x := by
  unfold Group.handed at none
  split at none
  · next same => unfold Group.requesting; rw [same]
  · exact absurd none (by simp)

theorem mem_grantsChanged {before : State} {g : Fin 24} : g ∈ grantsChanged before s
    ↔ (before.budget.groups.get g).level ≠ (s.budget.groups.get g).level := by
  unfold grantsChanged
  simp [indices]

theorem State.takeGrants_eq (s before : State) : s.takeGrants before =
    ({ s with
      lighting := { s.lighting with groups := s.lighting.groups.mapIdx fun g x =>
        if g ∈ (grantsChanged before s) then (x.takeGrant (s.budget.groups.get g).level).requesting (s.scene g) else x }
      lines := { s.lines with dimmers := s.lines.dimmers.mapIdx fun g n =>
        if g ∈ (grantsChanged before s) then ((s.lighting.groups.get g).takeGrant (s.budget.groups.get g).level).output else n } },
      (grantsChanged before s).filterMap fun g =>
        ((s.lighting.groups.get g).takeGrant (s.budget.groups.get g).level).handed (s.scene g) g) := by
  have standing : s.takeGrants before
      = s.groupsDo (grantsChanged before s) fun _ g x => x.takeGrant (s.budget.groups.get g).level :=
    foldl_eq_foldl (fun h : Handed => h.1.budget = s.budget) _ _
      (fun b g kept => by dsimp only [Handed.group]; rw [kept])
      (fun b g kept => by unfold Handed.group; dsimp only; rw [State.putGroup_state]; exact kept) _ _ rfl
  rw [standing]
  exact State.groupsDo_each _ (fun g x => x.takeGrant (s.budget.groups.get g).level) s (fun _ _ _ _ _ => rfl) _
    ((List.nodup_finRange 24).filter _)

theorem State.takeGrants_still {before : State}
    (same : ∀ g, (before.budget.groups.get g).level = (s.budget.groups.get g).level) : s.takeGrants before = (s, []) := by
  have none : grantsChanged before s = [] :=
    List.eq_nil_iff_forall_not_mem.mpr fun g changed => mem_grantsChanged.mp changed (same g)
  unfold State.takeGrants
  rw [none]
  rfl

/-- A taking that hands no request takes each changed level and records nothing else. -/
theorem State.takeGrants_silent {before : State} (none : (s.takeGrants before).2 = []) (g : Fin 24) :
    (s.takeGrants before).1.lighting.groups.get g
      = if (before.budget.groups.get g).level = (s.budget.groups.get g).level then s.lighting.groups.get g
        else (s.lighting.groups.get g).takeGrant (s.budget.groups.get g).level := by
  rw [State.takeGrants_eq] at none ⊢
  dsimp only at none ⊢
  rw [Table.get_mapIdx]
  by_cases changed : g ∈ grantsChanged before s
  · rw [if_pos changed, if_neg (mem_grantsChanged.mp changed)]
    exact Group.requesting_handed (List.filterMap_eq_nil_iff.mp none g changed)
  · rw [if_neg changed, if_pos (by simpa [mem_grantsChanged] using changed)]

theorem State.takeGrants_latches (s before : State) : (s.takeGrants before).1.lines.lines = s.lines.lines := by
  rw [State.takeGrants_eq]

/-! ### A pass and what follows it (R115, R121, R139, R140) -/

theorem passesAreHanded_spec : Claims.PassesAreHanded := by
  intro s
  refine ⟨s.grantsOnly_passAndHand, fun same => ?_, fun none => ?_, fun floors => ?_⟩
  · have still := State.takeGrants_still (s := s.pass) (before := s) fun g => (same g).symm
    unfold State.passAndHand
    rw [still]
    exact Handed.settle_of_nil rfl
  · obtain ⟨budget, links, doors⟩ := s.pass.takeGrants_beside s
    have ends : s.passAndHand = (s.pass.takeGrants s).1 := Handed.settle_of_nil none
    have groups := fun g => State.takeGrants_silent none g
    have latches := s.pass.takeGrants_latches s
    rw [ends]
    refine ⟨budget, doors, links, latches, fun g => (groups g).trans ?_⟩
    exact if_congr eq_comm rfl rfl
  · obtain ⟨quietly, calm⟩ := s.passAndHand_quietly floors
    have passes : s.pass.budget.passes = min 4294967295 (s.budget.passes + 1) := rfl
    have cap : s.passAndHand.budget.capInForce = s.budget.capInForce := by
      have kept := s.grantsOnly_passAndHand.caps
      unfold Allocator.capInForce
      rw [kept.1, kept.2]
    refine ⟨quietly.zones, quietly.passes.trans passes, quietly.reserved, fun within => ?_, quietly.curtains⟩
    have most := calm.within
    rw [quietly.reserved, cap] at most
    exact most.trans (max_le le_rfl within)

/-! ### CAP_SET, CAP_CLEAR and CAP_EXPIRY (R106 to R109) -/

theorem State.passIfCapChanged_eq {before : State} {old new : Nat} (hn : s.budget.capInForce = new)
    (ho : before.budget.capInForce = old) : s.passIfCapChanged before = if new = old then s else s.passAndHand := by
  unfold State.passIfCapChanged
  rw [hn, ho]

/-- The seconds a cap is given, and their end, as R107 has them. -/
theorem secondsOf_map_endTime (m now : Nat) :
    (secondsOf m).map (endTime now) = if m = 0 then none else some ((now + 60 * m) % 604800) := by
  unfold secondsOf
  split <;> rfl

theorem exec_capSet (h : s.Admits .capSet o) (a : CapSetArgs) {m : Nat} (hm : m = min 1440 a.minutes.toNat) :
    exec (.capSet o (some a)) s = .next (State.passIfCapChanged
      ((s.setCap (some ⟨a.units.toNat, secondsOf m⟩)).answered .capSet o ⟨if a.minutes.toNat ≤ 1440 then .ok else .clamped,
        .capSet a.units.toNat (min s.budget.phaseCap a.units.toNat)
          (if m = 0 then none else some ((s.clock.weekSecond + 60 * m) % 604800))⟩)
      (s.setReceiver o.link .hunting)) := by
  subst hm
  refine State.runCall_hands h (s.setCap (some ⟨a.units.toNat, secondsOf (min 1440 a.minutes.toNat)⟩))
    (f := fun t => t.passIfCapChanged (s.setReceiver o.link .hunting)) ?_
  have status : okOrClamped (min 1440 a.minutes.toNat != a.minutes.toNat)
      = if a.minutes.toNat ≤ 1440 then .ok else .clamped :=
    (okOrClamped_eq _ _).trans (if_congr (by omega) rfl rfl)
  unfold ownCapSet
  rw [← status, ← secondsOf_map_endTime]
  rfl

theorem exec_capClear (h : s.Admits .capClear o) : exec (.capClear o (some ())) s = .next (State.passIfCapChanged
      ((s.setCap none).answered .capClear o ⟨.ok, .capClear s.budget.phaseCap⟩) (s.setReceiver o.link .hunting)) :=
  State.runCall_hands h (s.setCap none) (f := fun t => t.passIfCapChanged (s.setReceiver o.link .hunting)) rfl

theorem exec_capExpiry {units n : Nat} (running : s.power = .running) (owed : .cap ∈ s.owed)
    (cap : s.budget.supCap = some ⟨units, some n⟩) (ends : n ≤ 1) : exec .capExpiry s = .next (State.passIfCapChanged
      (State.setCap { s with owed := s.owed.erase .cap } none) { s with owed := s.owed.erase .cap }) := by
  have ending : s.capEnding = true := by
    unfold State.capEnding
    rw [cap]
    exact decide_eq_true ends
  refine (State.run_running running _).trans ?_
  rw [ending, State.takeNamed_due owed]
  show Host.Outcome.next (State.capSecond { s with owed := s.owed.erase .cap }) = _
  unfold State.capSecond
  dsimp only
  rw [cap]
  exact congrArg Host.Outcome.next (if_pos ends)

theorem capCallsAndExpiry_spec : Claims.CapCallsAndExpiry := by
  refine ⟨fun s u o a m h hm hu => ?_, fun s u o h hu => ?_, fun s u units n running owed cap ends hu => ?_⟩
  · subst hu
    rw [exec_capSet h a hm]
    exact congrArg _ (State.passIfCapChanged_eq rfl rfl)
  · subst hu
    rw [exec_capClear h]
    exact congrArg _ (State.passIfCapChanged_eq rfl rfl)
  · subst hu
    rw [exec_capExpiry running owed cap ends]
    refine congrArg _ (State.passIfCapChanged_eq rfl ?_)
    unfold Allocator.capInForce
    dsimp only
    rw [cap]

/-- Settles O46. -/
theorem capCalls : Obligations.CapCalls := ⟨capCallsAndExpiry_spec, passesAreHanded_spec⟩

end Sys2Proof.Machine
end

section
/-! SUPPORT. RATINGS_WRITE: the rating an item names, one item written, and the table after every item (R110, R111). -/

namespace Sys2Proof.Machine

variable {s t u : State} {k : CallKind} {o : Origin}

/-! ### The rating an item names (R110, R111) -/

/-- A rating of the table. -/
inductive RatingSlot
  | heater (zone : Fin 8) (stage : Fin 4)
  | fan (zone : Fin 8)
  | curtain (curtain : Fin 16)
  | group (group : Fin 24)
deriving DecidableEq

/-- The value of a rating. -/
def Ratings.valueAt (r : Ratings) : RatingSlot → Nat
  | .heater z j => (r.heaters.get z).get j
  | .fan z => r.fans.get z
  | .curtain c => r.curtains.get c
  | .group g => r.groups.get g

/-- The table with one rating replaced. -/
def Ratings.put (r : Ratings) (v : Nat) : RatingSlot → Ratings
  | .heater z j => { r with heaters := r.heaters.modify z fun h => h.set j v }
  | .fan z => { r with fans := r.fans.set z v }
  | .curtain c => { r with curtains := r.curtains.set c v }
  | .group g => { r with groups := r.groups.set g v }

/-- The rating an item names, none where it does not exist. -/
def itemSlot : RatingItem → Option RatingSlot
  | .heater zone stage _ => (row 8 zone).bind fun z => (row 4 (stage - 1)).map fun j => .heater z j
  | .fan zone _ => (row 8 zone).map .fan
  | .curtain curtain _ => (row 16 curtain).map .curtain
  | .group group _ => (row 24 group).map .group
  | .noSuchRating => none

/-- The units an item gives. -/
def itemUnits : RatingItem → Nat
  | .heater _ _ v | .fan _ v | .curtain _ v | .group _ v => v.toNat
  | .noSuchRating => 0

/-- An item with other units for the rating it names. -/
def itemGiving (w : Half) : RatingItem → RatingItem
  | .heater z k _ => .heater z k w
  | .fan z _ => .fan z w
  | .curtain c _ => .curtain c w
  | .group g _ => .group g w
  | .noSuchRating => .noSuchRating

theorem Ratings.write_eq (r : Ratings) (i : RatingItem) : r.write i = (itemSlot i).map fun x => r.put (itemUnits i) x := by
  cases i with
  | heater z k v =>
    unfold Ratings.write itemSlot
    dsimp only
    cases row 8 z <;> cases row 4 (k - 1) <;> rfl
  | fan z v =>
    unfold Ratings.write itemSlot
    dsimp only
    cases row 8 z <;> rfl
  | curtain c v =>
    unfold Ratings.write itemSlot
    dsimp only
    cases row 16 c <;> rfl
  | group g v =>
    unfold Ratings.write itemSlot
    dsimp only
    cases row 24 g <;> rfl
  | noSuchRating => rfl

theorem Ratings.valueAt_put (r : Ratings) (v : Nat) (x y : RatingSlot) :
    (r.put v x).valueAt y = if x = y then v else r.valueAt y := by
  cases x <;> cases y <;> simp only [Ratings.put, Ratings.valueAt, reduceCtorEq, if_false, RatingSlot.heater.injEq,
    RatingSlot.fan.injEq, RatingSlot.curtain.injEq, RatingSlot.group.injEq, Table.get_set, Table.get_modify]
  next z j y l => by_cases zone : z = y <;> simp [zone, Table.get_set]

/-- The rating an item names, by the numbers it carries. -/
def itemNames : RatingItem → RatingSlot → Prop
  | .heater z k _, .heater i j => z.toNat = i.val ∧ k.toNat = j.val + 1
  | .fan z _, .fan i => z.toNat = i.val
  | .curtain c _, .curtain i => c.toNat = i.val
  | .group g _, .group i => g.toNat = i.val
  | _, _ => False

theorem itemSlot_eq_some_iff {i : RatingItem} {x : RatingSlot} : itemSlot i = some x ↔ itemNames i x := by
  cases i with
  | heater z k v =>
    cases x with
    | heater i j =>
      simp [itemSlot, itemNames, Option.bind_eq_some_iff, row_eq_some_iff]
      omega
    | _ => simp [itemSlot, itemNames, Option.bind_eq_some_iff]
  | fan z v => cases x <;> simp [itemSlot, itemNames, row_eq_some_iff]
  | curtain c v => cases x <;> simp [itemSlot, itemNames, row_eq_some_iff]
  | group g v => cases x <;> simp [itemSlot, itemNames, row_eq_some_iff]
  | noSuchRating => simp [itemSlot, itemNames]

/-- Items that name one rating differ in their units alone. -/
theorem itemSlot_inj {i j : RatingItem} {x : RatingSlot} (hi : itemSlot i = some x) (hj : itemSlot j = some x) :
    ∃ w, j = itemGiving w i := by
  rw [itemSlot_eq_some_iff] at hi hj
  have same {a b : Byte} {n : Nat} (ha : a.toNat = n) (hb : b.toNat = n) : b = a := BitVec.eq_of_toNat_eq (hb.trans ha.symm)
  cases x <;> cases i <;> try exact hi.elim
  all_goals cases j <;> try exact hj.elim
  next w => exact ⟨w, by rw [same hi.1 hj.1, same hi.2 hj.2]; rfl⟩
  all_goals next w => exact ⟨w, by rw [same hi hj]; rfl⟩

/-! ### Every item in order (R111) -/

/-- The table with every item written in order. -/
def Ratings.putAll (r : Ratings) (items : List RatingItem) : Ratings :=
  items.foldl (fun r i => match itemSlot i with
    | some x => r.put (itemUnits i) x
    | none => r) r

theorem Ratings.writeAll_eq_some {items : List RatingItem} (named : ∀ i ∈ items, ∃ x, itemSlot i = some x) (r : Ratings) :
    Ratings.writeAll items r = some (r.putAll items) := by
  induction items generalizing r with
  | nil => rfl
  | cons i rest ih =>
    obtain ⟨x, hx⟩ := named i List.mem_cons_self
    unfold Ratings.writeAll Ratings.putAll
    rw [r.write_eq, List.foldl_cons, hx]
    exact ih (fun j hj => named j (List.mem_cons_of_mem i hj)) _

theorem Ratings.writeAll_eq_none {items : List RatingItem} (outside : ∃ i ∈ items, itemSlot i = none) (r : Ratings) :
    Ratings.writeAll items r = none := by
  induction items generalizing r with
  | nil => obtain ⟨i, none, -⟩ := outside; exact absurd none List.not_mem_nil
  | cons i rest ih =>
    unfold Ratings.writeAll
    rw [r.write_eq]
    cases named : itemSlot i with
    | none => rfl
    | some x =>
      refine ih ?_ _
      obtain ⟨j, hj, bad⟩ := outside
      rcases List.mem_cons.mp hj with rfl | hj
      · exact absurd (named.symm.trans bad) (by simp)
      · exact ⟨j, hj, bad⟩

/-- A rating no item names stands. -/
theorem Ratings.putAll_unnamed {items : List RatingItem} {x : RatingSlot} (unnamed : ∀ i ∈ items, itemSlot i ≠ some x)
    (r : Ratings) : (r.putAll items).valueAt x = r.valueAt x := by
  refine foldl_invariant (P := fun q : Ratings => q.valueAt x = r.valueAt x) (fun q i hi kept => ?_) rfl
  cases named : itemSlot i with
  | none => exact kept
  | some y =>
    have other : y ≠ x := fun same => unnamed i hi (by rw [named, same])
    exact (q.valueAt_put _ y x).trans ((if_neg other).trans kept)

/-- A rating holds the value of the last item that names it. -/
theorem Ratings.putAll_last {before after : List RatingItem} {i : RatingItem} {x : RatingSlot}
    (named : itemSlot i = some x) (last : ∀ w, itemGiving w i ∉ after) (r : Ratings) :
    (r.putAll (before ++ i :: after)).valueAt x = itemUnits i := by
  have split : r.putAll (before ++ i :: after) = ((r.putAll before).put (itemUnits i) x).putAll after := by
    unfold Ratings.putAll
    rw [List.foldl_append, List.foldl_cons, named]
  rw [split, Ratings.putAll_unnamed, Ratings.valueAt_put, if_pos rfl]
  intro j hj same
  obtain ⟨w, rfl⟩ := itemSlot_inj named same
  exact last w hj

/-! ### The call (R111) -/

theorem ratingsWriteCall_spec : Claims.RatingsWriteCall := by
  refine ⟨fun s o a h outside => ?_, fun s o a h inside => ?_⟩
  · refine State.runCall_turnedAway h ?_
    unfold ownRatingsWrite
    rw [Ratings.writeAll_eq_none]
    obtain ⟨i, hi, bad⟩ := outside
    refine ⟨i, hi, Option.eq_none_iff_forall_ne_some.mpr fun x hx => ?_⟩
    rw [itemSlot_eq_some_iff] at hx
    cases i <;> cases x <;> simp only [itemNames] at hx <;> omega
  · have named : ∀ i ∈ a.items, ∃ x, itemSlot i = some x := by
      intro i hi
      have inside := inside i hi
      simp only [itemSlot_eq_some_iff]
      cases i with
      | heater z k v => exact ⟨.heater ⟨z.toNat, by omega⟩ ⟨k.toNat - 1, by omega⟩, rfl, by dsimp only; omega⟩
      | fan z v => exact ⟨.fan ⟨z.toNat, by omega⟩, rfl⟩
      | curtain c v => exact ⟨.curtain ⟨c.toNat, by omega⟩, rfl⟩
      | group g v => exact ⟨.group ⟨g.toNat, by omega⟩, rfl⟩
      | noSuchRating => exact inside.elim
    have lastItem {before after : List RatingItem} {i : RatingItem} (x : RatingSlot) (e : a.items = before ++ i :: after)
        (last : ∀ w, itemGiving w i ∉ after) (names : itemNames i x) :
        (s.budget.ratings.putAll a.items).valueAt x = itemUnits i :=
      e ▸ Ratings.putAll_last (itemSlot_eq_some_iff.mpr names) last s.budget.ratings
    have stands (x : RatingSlot) (unnamed : ∀ i ∈ a.items, ¬ itemNames i x) :
        (s.budget.ratings.putAll a.items).valueAt x = s.budget.ratings.valueAt x :=
      Ratings.putAll_unnamed (fun i hi => mt itemSlot_eq_some_iff.mp (unnamed i hi)) s.budget.ratings
    refine ⟨_, _, rfl, State.runCall_hands h { s with budget := { s.budget with ratings := s.budget.ratings.putAll a.items } }
      (f := fun t => if s.budget.ratings.putAll a.items = s.budget.ratings then t else t.passAndHand) ?_,
      fun _ _ z k v e last i j hz hk => lastItem (.heater i j) e last ⟨hz, hk⟩,
      fun _ _ z v e last i hz => lastItem (.fan i) e last hz,
      fun _ _ c v e last i hc => lastItem (.curtain i) e last hc,
      fun _ _ g v e last i hg => lastItem (.group i) e last hg,
      fun i j unnamed => stands (.heater i j) ?_, fun i unnamed => stands (.fan i) ?_,
      fun i unnamed => stands (.curtain i) ?_, fun i unnamed => stands (.group i) ?_, fun none => by rw [none]; rfl⟩
    · unfold ownRatingsWrite
      rw [Ratings.writeAll_eq_some named]
      rfl
    · rintro (_ | _ | _ | _ | _) hi names
      · exact unnamed _ _ _ hi names
      all_goals exact names
    · rintro (_ | _ | _ | _ | _) hi names
      case fan => exact unnamed _ _ hi names
      all_goals exact names
    · rintro (_ | _ | _ | _ | _) hi names
      case curtain => exact unnamed _ _ hi names
      all_goals exact names
    · rintro (_ | _ | _ | _ | _) hi names
      case group => exact unnamed _ _ hi names
      all_goals exact names

/-- Settles O47. -/
theorem ratingsWrite : Obligations.RatingsWrite := ⟨ratingsWriteCall_spec, passesAreHanded_spec⟩

end Sys2Proof.Machine
end

section
/-! SUPPORT. The waiting curtains retried: which are granted, in which order, and the load they take (R123). -/

namespace Sys2Proof.Machine

variable {s t u : State} {c : Fin 16}

/-! ### The curtains a retry grants and their ratings (R123) -/

/-- A curtain granted in the second state that was not granted in the first. -/
def State.freshlyGranted (s t : State) (c : Fin 16) : Bool :=
  (t.doors.curtains.get c).granted && !(s.doors.curtains.get c).granted

/-- The ratings of the curtains of a list that are picked. -/
def Ratings.curtainLoad (r : Ratings) (l : List (Fin 16)) (pick : Fin 16 → Bool) : Nat :=
  ((l.filter pick).map r.curtains.get).sum

theorem Ratings.curtainLoad_snoc (r : Ratings) (l : List (Fin 16)) (c : Fin 16) (pick : Fin 16 → Bool) :
    r.curtainLoad (l ++ [c]) pick = r.curtainLoad l pick + if pick c = true then r.curtains.get c else 0 := by
  unfold Ratings.curtainLoad
  rw [List.filter_append, List.map_append, List.sum_append]
  split
  · next picked => simp [picked]
  · next picked => simp [picked]

theorem Ratings.curtainLoad_congr (r : Ratings) {l : List (Fin 16)} {p q : Fin 16 → Bool} (same : ∀ c ∈ l, p c = q c) :
    r.curtainLoad l p = r.curtainLoad l q := congrArg (fun l => (l.map r.curtains.get).sum) (List.filter_congr same)

theorem Ratings.curtainLoad_mono (r : Ratings) (l : List (Fin 16)) {p q : Fin 16 → Bool} (less : ∀ c, p c = true → q c = true) :
    r.curtainLoad l p ≤ r.curtainLoad l q := by
  have sub : (l.filter p).Sublist (l.filter q) := List.monotone_filter_right l less
  exact (sub.map _).sum_le_sum fun _ _ => Nat.zero_le _

/-- What trying the curtains of an ascending list leaves. -/
structure State.Retried (s t : State) (l : List (Fin 16)) : Prop where
  only   : s.CurtainsOnly t
  others : ∀ c, c ∉ l → t.doors.curtains.get c = s.doors.curtains.get c
  keeps  : ∀ c, s.KeepsGrant t c
  total  : t.budget.total = s.budget.total + s.budget.ratings.curtainLoad l (s.freshlyGranted t)
  tried  : ∀ c ∈ l, (s.doors.curtains.get c).granted = false → (s.freshlyGranted t c = true ↔
    (s.doors.curtains.get c).state ≠ .idle ∧ (s.budget.ratings.curtains.get c : Int) ≤ s.budget.headroom
      - (s.budget.ratings.curtainLoad l fun e => decide (e < c) && s.freshlyGranted t e : Nat))

theorem State.Retried.nil (s : State) : s.Retried s [] :=
  ⟨.refl s, fun _ _ => rfl, fun _ => id, rfl, fun _ none => absurd none List.not_mem_nil⟩

/-- The curtain above all those tried is tried with the headroom they left. -/
theorem State.Retried.snoc {l : List (Fin 16)} (h : s.Retried t l) (above : ∀ e ∈ l, e < c) :
    s.Retried (t.tryCurtain c) (l ++ [c]) := by
  have outside : c ∉ l := fun inside => lt_irrefl c (above c inside)
  have stands := h.others c outside
  have ratings : t.budget.ratings = s.budget.ratings := by rw [h.only]
  have cap : t.budget.capInForce = s.budget.capInForce := by rw [h.only]; rfl
  have headroom : t.budget.headroom
      = s.budget.headroom - (s.budget.ratings.curtainLoad l (s.freshlyGranted t) : Nat) := by
    unfold Allocator.headroom
    rw [cap, h.total]
    omega
  have fits : t.CurtainFits c ↔ (s.doors.curtains.get c).state ≠ .idle ∧ (s.doors.curtains.get c).granted = false
      ∧ (s.budget.ratings.curtains.get c : Int)
        ≤ s.budget.headroom - (s.budget.ratings.curtainLoad l (s.freshlyGranted t) : Nat) := by
    unfold State.CurtainFits
    rw [stands, ratings, headroom]
  have only := h.only.trans (t.curtainsOnly_tryCurtain c)
  have keeps : ∀ e, s.KeepsGrant (t.tryCurtain c) e := fun e on => t.keepsGrant_tryCurtain c e (h.keeps e on)
  have others := fun e => t.tryCurtain_others c e
  have own : s.freshlyGranted (t.tryCurtain c) c = true ↔ t.CurtainFits c := by
    unfold State.freshlyGranted
    by_cases yes : t.CurtainFits c
    · rw [State.tryCurtain_fits yes]
      simp [State.setTotal, State.setCurtain, yes, (fits.mp yes).2.1]
    · rw [State.tryCurtain_waits yes, stands]
      simp [yes]
  have total : (t.tryCurtain c).budget.total
      = t.budget.total + if s.freshlyGranted (t.tryCurtain c) c = true then s.budget.ratings.curtains.get c else 0 := by
    by_cases yes : t.CurtainFits c
    · rw [if_pos (own.mpr yes), State.tryCurtain_fits yes, ratings]; rfl
    · rw [if_neg (mt own.mp yes), State.tryCurtain_waits yes]; rfl
  generalize t.tryCurtain c = v at *
  have before (e : Fin 16) (he : e ∈ l) : s.freshlyGranted v e = s.freshlyGranted t e := by
    unfold State.freshlyGranted
    rw [others e (above e he).ne]
  refine ⟨only, fun e he => ?_, keeps, ?_, fun e he waits => ?_⟩
  · rw [List.mem_append, List.mem_singleton, not_or] at he
    rw [others e he.2, h.others e he.1]
  · rw [total, h.total, Ratings.curtainLoad_snoc, Ratings.curtainLoad_congr _ before, Nat.add_assoc]
  · rw [Ratings.curtainLoad_snoc]
    rcases List.mem_append.mp he with he | he
    · have below : ¬ c < e := not_lt_of_gt (above e he)
      have same : (s.budget.ratings.curtainLoad l fun d => decide (d < e) && s.freshlyGranted v d)
          = s.budget.ratings.curtainLoad l fun d => decide (d < e) && s.freshlyGranted t d :=
        Ratings.curtainLoad_congr _ fun d hd => by rw [before d hd]
      rw [before e he, h.tried e he waits, same, decide_eq_false below]
      rfl
    · obtain rfl := List.mem_singleton.mp he
      have same : (s.budget.ratings.curtainLoad l fun d => decide (d < e) && s.freshlyGranted v d)
          = s.budget.ratings.curtainLoad l (s.freshlyGranted t) :=
        Ratings.curtainLoad_congr _ fun d hd => by rw [before d hd, decide_eq_true (above d hd), Bool.true_and]
      rw [own, fits, same, decide_eq_false (lt_irrefl e)]
      simp [waits]

theorem State.retried_foldl (s : State) (l : List (Fin 16)) (ascending : l.Pairwise (· < ·)) :
    s.Retried (l.foldl (fun t c => t.tryCurtain c) s) l := by
  induction l using List.reverseRecOn with
  | nil => exact .nil s
  | append_singleton l c ih =>
    rw [List.pairwise_append] at ascending
    obtain ⟨front, -, above⟩ := ascending
    rw [List.foldl_append]
    exact (ih front).snoc fun e he => above e he c (List.mem_singleton_self c)

theorem State.Retried.followGrants {l : List (Fin 16)} (h : s.Retried t l) : s.Retried t.followGrants l :=
  ⟨h.only.trans t.curtainsOnly_followGrants, h.others, h.keeps, h.total, h.tried⟩

theorem State.retryCurtains_retried (s : State) : s.Retried s.retryCurtains (indices 16) := by
  have ascending : (indices 16).Pairwise (· < ·) := List.pairwise_lt_finRange 16
  unfold State.retryCurtains State.forEach
  exact (s.retried_foldl _ ascending).followGrants

theorem State.total_le_retryCurtains (s : State) : s.budget.total ≤ s.retryCurtains.budget.total :=
  (Nat.le_add_right _ _).trans_eq s.retryCurtains_retried.total.symm

/-- No curtain left waiting fits the headroom a retry leaves (R123). -/
theorem State.retryCurtains_fills (s : State) (c : Fin 16) : ¬ s.retryCurtains.CurtainFits c := by
  have states := s.grantsOnly_retryCurtains
  have retried := s.retryCurtains_retried
  generalize s.retryCurtains = t at *
  rintro ⟨active, waits, fits⟩
  have waited : (s.doors.curtains.get c).granted = false := by
    rw [← Bool.not_eq_true]
    exact fun on => absurd (retried.keeps c on) (by simp [waits])
  have fresh : s.freshlyGranted t c = false := by simp [State.freshlyGranted, waits]
  have state : (t.doors.curtains.get c).state = (s.doors.curtains.get c).state := (states.curtain c).1
  have tried := retried.tried c (mem_indices c) waited
  have less := s.budget.ratings.curtainLoad_mono (indices 16) (p := fun e => decide (e < c) && s.freshlyGranted t e)
    (q := s.freshlyGranted t) fun e both => (Bool.and_eq_true_iff.mp both).2
  have total := retried.total
  rw [fresh] at tried
  have ratings : t.budget.ratings = s.budget.ratings := by rw [retried.only]
  have cap : t.budget.capInForce = s.budget.capInForce := by rw [retried.only]; rfl
  rw [ratings] at fits
  unfold Allocator.headroom at fits tried
  rw [cap, total] at fits
  refine absurd (tried.mpr ⟨state ▸ active, ?_⟩) (by decide)
  omega

theorem waitingCurtainsRetried_spec : Claims.WaitingCurtainsRetried := by
  refine ⟨fun s t fresh ht hf => ?_, fun s c x hx granted => ?_⟩
  · obtain rfl : fresh = s.freshlyGranted t := funext hf
    have grants := s.grantsOnly_retryCurtains
    have retried := s.retryCurtains_retried
    have lines : ∃ v : State, t = v.followGrants := ⟨_, ht⟩
    rw [← ht] at grants retried
    refine ⟨grants, by rw [retried.only], by rw [retried.only], by rw [retried.only], retried.keeps,
      fun c waits => ?_, ?_, fun l c out own => ?_⟩
    · have tried := retried.tried c (mem_indices c) waits
      rw [tried]
      unfold Ratings.curtainLoad Allocator.headroom
      simp only [Bool.decide_and, Bool.decide_eq_true]
    · rw [retried.total]
      unfold Ratings.curtainLoad
      simp only [Bool.decide_eq_true]
    · obtain ⟨v, rfl⟩ := lines
      rw [State.followGrants_line, Line.following_config] at out own
      rw [State.followGrants_line]
      unfold Line.following
      rw [out, own]
      rfl
  · subst hx
    exact if_pos granted

end Sys2Proof.Machine
end

section
/-! SUPPORT. The allocator between passes: a stage check that finds a request gone, a zone going OFF, a lighting request, and
MINIMUM_ON_END (R112, R122 to R127). -/

namespace Sys2Proof.Machine

variable {s t u : State} {z : Fin 8}

/-! ### The heater stages above a level switched off (R112) -/

theorem ZoneGrant.setHeat_below (g : ZoneGrant) {h : Nat} (below : h ≤ g.heat) : g.setHeat h
    = { g with heat := h, times := g.times.mapIdx fun i n => if h ≤ i.val ∧ i.val < g.heat then 0 else n } := by
  have times : (g.setHeat h).times = g.times.mapIdx fun i n => if h ≤ i.val ∧ i.val < g.heat then 0 else n := by
    refine Table.ext_get fun i => ?_
    unfold ZoneGrant.setHeat
    rw [Table.get_mapIdx, Table.get_mapIdx]
    refine if_congr ?_ rfl rfl
    rw [bne_iff_ne, ne_eq, decide_eq_decide]
    omega
  rw [← times]
  rfl

/-- A zone whose highest stage on is past its minimum on has its stages above the request switched off (R126). -/
theorem State.stageCheck_eq (s : State) (z : Fin 8) (g : ZoneGrant) (h : Nat) (r : List Nat) (hg : g = s.budget.zones.get z)
    (hh : h = (s.budget.demandOf z).heat) (hr : r = (s.budget.ratings.heaters.get z).rows) :
    s.stageCheck z = (if h < g.heat ∧ s.budget.minOn ≤ g.time g.heat then State.retryCurtains
      { s with budget := { s.budget with
          zones := s.budget.zones.set z { g with
            heat := h, committed := min g.committed h
            times := g.times.mapIdx fun i n => if h ≤ i.val ∧ i.val < g.heat then 0 else n }
          total := s.budget.total - ((r.take g.heat).sum - (r.take h).sum)
          reserved := s.budget.reserved - ((r.take g.committed).sum - (r.take (min g.committed h)).sum) } }
      else s) := by
  have gone : s.budget.requestGone z = true ↔ h < g.heat ∧ s.budget.minOn ≤ g.time g.heat := by
    subst hg hh
    unfold Allocator.requestGone
    simp
  unfold State.stageCheck; dsimp only
  rw [if_congr gone rfl rfl, ← hg, ← hh]
  split
  · next off =>
    rw [ZoneGrant.setHeat_below g off.1.le, hr]
    rfl
  · rfl

/-! ### MINIMUM_ON_END (R126) -/

/-- A zone's stages one second older, and those above its request switched off (R112, R126). -/
theorem State.stageSecond_off (s : State) (z : Fin 8) (g : ZoneGrant) (h : Nat) (r : List Nat)
    (hg : g = s.budget.zones.get z) (hh : h = (s.budget.demandOf z).heat) (hr : r = (s.budget.ratings.heaters.get z).rows)
    (less : h < g.heat) (four : g.heat ≤ 4) (past : s.budget.minOn ≤ min 65535 (g.time g.heat + 1)) :
    (s.ageStages z).budget.requestGone z = true ∧ s.stageSecond z = State.retryCurtains
      { s with budget := { s.budget with
          zones := s.budget.zones.set z { g with
            heat := h, committed := min g.committed h
            times := g.times.mapIdx fun i n => if h ≤ i.val ∧ i.val < g.heat then 0 else min 65535 (n + 1) }
          total := s.budget.total - ((r.take g.heat).sum - (r.take h).sum)
          reserved := s.budget.reserved - ((r.take g.committed).sum - (r.take (min g.committed h)).sum) } } := by
  have aged : s.ageStages z = s.setGrant z { g with times := g.times.map fun t => min 65535 (t + 1) } := by rw [hg]; rfl
  have older := ZoneGrant.time_aged g four
  unfold State.stageSecond
  rw [aged]
  have row : (s.setGrant z { g with times := g.times.map fun t => min 65535 (t + 1) }).budget.zones.get z
      = { g with times := g.times.map fun t => min 65535 (t + 1) } := Table.get_set_same _ _ _
  constructor
  · unfold Allocator.requestGone; dsimp only
    rw [row, older, Bool.and_eq_true, decide_eq_true_iff, decide_eq_true_iff]
    exact ⟨hh ▸ less, past⟩
  · rw [State.stageCheck_eq (s.setGrant z { g with times := g.times.map fun t => min 65535 (t + 1) }) z _ h r row.symm hh hr,
      if_pos ⟨less, older ▸ past⟩]
    unfold State.setGrant; dsimp only
    rw [Table.set_set, Table.mapIdx_map]

theorem minimumOnEnd_spec : Claims.MinimumOnEnd := by
  intro s u t z g h r running owed hg hh less four past hr hu ht
  obtain ⟨ending, second⟩ := State.stageSecond_off { s with owed := s.owed.erase (.stages z) } z g h r hg hh hr less four past
  rw [← hu, ← ht] at second
  have taken : exec (.minimumOnEnd z) s = .next t := by
    refine (State.run_running running _).trans ?_
    have due : s.stageEnding z = true := ending
    rw [due, State.takeNamed_due owed]
    exact congrArg Host.Outcome.next second
  have grants := State.grantsOnly_stageSecond { s with owed := s.owed.erase (.stages z) } z
  rw [second] at grants
  have only := u.curtainsOnly_retryCurtains
  have kept := fun c => u.keepsGrant_retryCurtains c
  have grows := u.total_le_retryCurtains
  rw [← ht] at only kept grows
  have zones : t.budget.zones = u.budget.zones := by rw [only]
  have own : u.budget.zones.get z = { g with
      heat := h, committed := min g.committed h
      times := g.times.mapIdx fun i n => if h ≤ i.val ∧ i.val < g.heat then 0 else min 65535 (n + 1) } := by
    rw [hu]
    exact Table.get_set_same _ _ _
  refine ⟨taken, grants, by rw [zones, own], by rw [zones, own], fun i => ?_, fun y hy => ?_, by rw [only, hu],
    by rw [only, hu], by rw [only], grows, fun c on => kept c (by rw [hu]; exact on), by rw [only, hu], by rw [only, hu]⟩
  · rw [zones, own]
    exact Table.get_mapIdx _ _ _
  · rw [zones, hu]
    exact Table.get_set_other _ _ _ _ hy.symm

/-! ### Curtains and a zone going OFF (R122, R123, R125) -/

theorem grantsBetweenPasses_spec : Claims.GrantsBetweenPasses := by
  refine ⟨fun s c active waits => ?_, fun s c idle => ?_, fun s z => ?_, fun s l on out own => ?_, by decide, by decide,
    by decide⟩
  · refine ⟨?_, ?_⟩
    · rw [State.curtainDemand_row active, waits]
      rfl
    · show (s.tryCurtain c).budget.total = _
      split
      · next low => rw [State.tryCurtain_fits ⟨active, waits, low⟩]; rfl
      · next high => rw [State.tryCurtain_waits fun all => high all.2.2]; rfl
  · refine ⟨by rw [State.curtainRelease_idle _ _ idle], fun waits => if_neg (by rw [waits]; decide), fun e other on => ?_⟩
    exact (s.handCurtain_others c .release e other).1 on
  · have released := s.zoneOff_releases z
    refine ⟨released.stages.1, released.stages.2, by rw [released.demand, if_pos rfl]; rfl, released.times, released.others, fun g hg held => ?_⟩
    subst hg
    have still : ¬ ((s.budget.zones.get z).heat = 0 ∧ (s.budget.zones.get z).fans = 0) := fun idle =>
        held.elim (fun on => on idle.1) fun on => on idle.2
    have off : s.zoneOff z = State.retryCurtains ((((s.markOff z).setGrant z (s.budget.zones.get z).released).setTotal
      (s.budget.total - s.budget.zoneLoad z)).setReserved (s.budget.reserved - s.budget.zoneReserved z)) := if_neg still
    rw [off]
    unfold ZoneGrant.released
    rw [ZoneGrant.setHeat_below _ (Nat.zero_le _)]
    simp only [Nat.zero_le, true_and]
    rfl
  · rw [State.followGrants_line]
    unfold Line.following
    rw [out, own]

/-! ### A lighting request (R124) -/

theorem raisedLevel_full (rating granted desired : Nat) {headroom : Int} (full : headroom ≤ 0) :
    raisedLevel rating granted desired headroom = granted := if_neg fun raised => not_lt_of_ge full raised.2

/-- With headroom a level rises to the largest one whose draw fits it (R124). -/
theorem raisedLevel_largest {rating granted desired : Nat} {headroom : Int} (bound : granted ≤ desired) (room : 0 < headroom) :
    (draw rating (raisedLevel rating granted desired headroom) : Int) - draw rating granted ≤ headroom
    ∧ ∀ k, raisedLevel rating granted desired headroom < k → k ≤ desired →
        headroom < (draw rating k : Int) - draw rating granted := by
  obtain ⟨rises, -⟩ := raisedLevel_between rating granted desired headroom bound
  have drawn := draw_le_draw rating rises
  refine ⟨?_, fun k above upto => ?_⟩
  · rcases raisedLevel_fits rating granted desired headroom with same | fits
    · rw [same]; omega
    · omega
  · have raised : granted < desired ∧ 0 < headroom := ⟨lt_of_le_of_lt rises (above.trans_le upto), room⟩
    have level : raisedLevel rating granted desired headroom
        = largestLevel rating granted (desired - granted) headroom.toNat := if_pos raised
    have more := largestLevel_past rating granted (desired - granted) headroom.toNat (level ▸ above) (by omega)
    omega

theorem lightingRequests_spec : Claims.LightingRequests := by
  refine ⟨?_, ?_⟩
  · intro s t q x y rating fallen total headroom ht hx hy hr hf hto hh
    have applied : t = ((s.setGroupGrant q.group ⟨raisedLevel rating fallen (max q.floor q.level) headroom, q.floor,
        max q.floor q.level⟩).setTotal (total + draw rating (raisedLevel rating fallen (max q.floor q.level) headroom)
          - draw rating fallen)).setReserved (s.budget.reserved + draw rating q.floor - draw rating x.floorRequest) := by
      subst hh hto hf hr hx
      exact ht
    have most : fallen ≤ max q.floor q.level := by omega
    have least : q.floor ≤ fallen := by omega
    have row : y = ⟨raisedLevel rating fallen (max q.floor q.level) headroom, q.floor, max q.floor q.level⟩ := by
      rw [hy, applied]
      exact Table.get_set_same _ _ _
    obtain ⟨rises, bound⟩ := raisedLevel_between rating fallen (max q.floor q.level) headroom most
    have level : y.level = raisedLevel rating fallen (max q.floor q.level) headroom := by rw [row]
    rw [← level] at rises bound
    refine ⟨by rw [row], by rw [row], least.trans rises, bound, rises, fun full => ?_, fun room => ?_, ?_, ?_, ?_⟩
    · rw [level, raisedLevel_full _ _ _ full]
    · rw [level]
      exact raisedLevel_largest most room
    · rw [row, applied]
      rfl
    · rw [level, applied]
      rfl
    · rw [applied]
      rfl
  · intro s t u q x hx ht hu
    have raised : t = (s.applyRequest q).raiseIf (decide ((x.floorRequest < q.floor ∨ x.level < q.floor)
        ∧ (s.applyRequest q).budget.capInForce < (s.applyRequest q).budget.reserved)) .overcap := by
      rw [ht]
      unfold State.raiseIf
      simp only [decide_eq_true_eq]
    have passed : u = if t.budget.overdrawn then t.pass else t := by
      rw [hu]
      unfold Allocator.overdrawn
      simp only [decide_eq_true_eq]
    rw [passed, raised, hx]
    rfl

/-- Settles O50. -/
theorem grantsAndRequests : Obligations.GrantsAndRequests :=
  ⟨grantsBetweenPasses_spec, waitingCurtainsRetried_spec, lightingRequests_spec, minimumOnEnd_spec⟩

end Sys2Proof.Machine
end

section
/-! SUPPORT. STAGE_TIMES and BUDGET_READ, the bytes of BUDGET_READ's answer, and the check of every zone (R112, R113, R126, R127,
R159). -/

namespace Sys2Proof.Machine

variable {s t u : State} {k : CallKind} {o : Origin} {z : Fin 8}

/-! ### The bytes of BUDGET_READ's answer (R127, R159) -/

namespace Wire

theorem zoneDemand_length_le (d : ZoneDemand) : (zoneDemand d).length ≤ 7 := by
  have effective := opt_length_le (signed 2) 2 (fun _ => by simp) d.effective
  simp [zoneDemand]
  omega

theorem grants_length_le (g : GrantReport) : (grants g).length ≤ 60 := by
  have heat := whole_length_le (be 1) 1 (fun _ => by simp) g.heat
  have fans := whole_length_le (be 1) 1 (fun _ => by simp) g.fans
  have levels := whole_length_le (be 1) 1 (fun _ => by simp) g.levels
  simp [grants]
  omega

theorem stages_length_le (t : Table 8 (Table 4 (Bool × Nat))) : (stages t).length ≤ 68 := by
  have times := whole_length_le (whole fun x : Bool × Nat => be 2 x.2) 8
    (fun z => whole_length_le (fun x : Bool × Nat => be 2 x.2) 2 (fun _ => by simp) z) t
  simp [stages]
  omega

theorem budget_length_le (r : BudgetReport) : (budget r).length ≤ 242 := by
  have grants := grants_length_le r.grants
  have capEnd := fun c : CapReport => opt_length_le (be 3) 3 (fun _ => by simp) c.capEnd
  have cap := opt_length_le (fun c : CapReport => be 2 c.units ++ opt (be 3) c.capEnd) 6
    (fun c => by have := capEnd c; simp; omega) r.supCap
  have demand := opt_length_le (whole zoneDemand) 56 (fun d => whole_length_le zoneDemand 7 zoneDemand_length_le d) r.demand
  have stages := stages_length_le r.stages
  have requests := whole_length_le (fun q : Nat × Nat => be 1 q.1 ++ be 1 q.2) 2 (fun _ => by simp) r.requests
  unfold budget
  simp only [List.length_append, be_length]
  omega

theorem be_one (v : Nat) : be 1 v = [BitVec.ofNat 8 v] := by
  simp [be]

/-- A 16-bit number is sent as its high byte and its low byte. -/
theorem be_two (v : BitVec 16) : be 2 v.toNat = [v.extractLsb' 8 8, v.extractLsb' 0 8] := by
  have bytes : be 2 v.toNat = [BitVec.ofNat 8 (v.toNat / 256), BitVec.ofNat 8 (v.toNat / 1)] := rfl
  have high : BitVec.ofNat 8 (v.toNat / 256) = v.extractLsb' 8 8 :=
    BitVec.eq_of_toNat_eq (by simp [BitVec.extractLsb'_toNat, Nat.shiftRight_eq_div_pow])
  have low : BitVec.ofNat 8 (v.toNat / 1) = v.extractLsb' 0 8 :=
    BitVec.eq_of_toNat_eq (by simp [BitVec.extractLsb'_toNat])
  rw [bytes, high, low]

theorem frameBytes_eq (kind tag : Byte) (b checked : List Byte) (h : checked = [BitVec.ofNat 8 b.length, kind, tag] ++ b) :
    frameBytes kind tag b = 0x7E :: checked ++ [(crc16 checked).extractLsb' 8 8, (crc16 checked).extractLsb' 0 8] := by
  have length : be 1 b.length ++ [kind, tag] ++ b = checked := by rw [h, be_one]; rfl
  unfold frameBytes; dsimp only
  rw [length, be_two]

end Wire

/-! ### STAGE_TIMES and BUDGET_READ (R112, R113, R127) -/

theorem stageTimesAndBudgetReadCalls_spec : Claims.StageTimesAndBudgetReadCalls := by
  refine ⟨fun s o a on off h hon hoff => ?_, fun s o h => ?_, fun kind tag r body checked hb hc => ?_⟩
  · refine State.runCall_hands h { s with budget := { s.budget with minOn := on, minOff := off } }
      (f := State.stageChecks) ?_
    have status : okOrClamped (a.minimumOn.any (fun v => 600 < v.toNat) || a.minimumOff.any (fun v => 600 < v.toNat))
        = if (∃ v, a.minimumOn = some v ∧ 600 < v.toNat) ∨ (∃ v, a.minimumOff = some v ∧ 600 < v.toNat) then .clamped
          else .ok := by
      unfold okOrClamped
      refine if_congr ?_ rfl rfl
      simp [Option.any_eq_true]
    unfold ownStageTimes
    rw [status]
    subst hon hoff
    cases a.minimumOn <;> cases a.minimumOff <;> rfl
  · refine State.runCall_answers h s ?_
    unfold ownBudgetRead
    rfl
  · have length : body.length ≤ 243 := by
      rw [hb]
      have budget := Wire.budget_length_le r
      simp [Wire.body, Wire.answerFields]
      omega
    refine ⟨by omega, ?_⟩
    rw [Wire.frame_eq_some, ← hb]
    exact ⟨by omega, (Wire.frameBytes_eq kind tag body checked hc).symm⟩

/-! ### The check of every zone (R112, R126) -/

/-- Two states that differ in the curtains, the zones' stages, the totals and the lines' latches alone. -/
def State.ChecksOnly (s t : State) : Prop :=
  t = { s with
    doors := { s.doors with curtains := t.doors.curtains }
    budget := { s.budget with zones := t.budget.zones, total := t.budget.total, reserved := t.budget.reserved }
    lines := { s.lines with lines := t.lines.lines } }

theorem State.ChecksOnly.trans (h : s.ChecksOnly t) (k : t.ChecksOnly u) : s.ChecksOnly u := by
  unfold State.ChecksOnly at *
  rw [h] at k
  exact k

theorem State.CurtainsOnly.checksOnly (h : s.CurtainsOnly t) : s.ChecksOnly t := by
  unfold State.CurtainsOnly at h
  rw [h]
  exact Eq.refl _

/-- A zone's highest stage on is past its minimum on while its request is below it (R126). -/
def State.RequestGone (s : State) (z : Fin 8) : Prop :=
  (s.budget.demandOf z).heat < (s.budget.zones.get z).heat
    ∧ s.budget.minOn ≤ (s.budget.zones.get z).time (s.budget.zones.get z).heat

/-- A zone's record with its stages above a level switched off. -/
def ZoneGrant.switchedTo (g : ZoneGrant) (h : Nat) : ZoneGrant :=
  { g with
    heat := h, committed := min g.committed h
    times := g.times.mapIdx fun i n => if h ≤ i.val ∧ i.val < g.heat then 0 else n }

theorem State.stageCheck_stands (h : ¬ s.RequestGone z) : s.stageCheck z = s :=
  (s.stageCheck_eq z _ _ _ rfl rfl rfl).trans (if_neg h)

/-- What a check that switches stages of a zone off leaves. -/
structure State.SwitchesOff (s t : State) (z : Fin 8) : Prop where
  only   : s.ChecksOnly t
  zones  : t.budget.zones = s.budget.zones.set z ((s.budget.zones.get z).switchedTo (s.budget.demandOf z).heat)
  keeps  : ∀ c, s.KeepsGrant t c
  filled : ∀ c, ¬ t.CurtainFits c

theorem State.stageCheck_switches (h : s.RequestGone z) : s.SwitchesOff (s.stageCheck z) z := by
  rw [(s.stageCheck_eq z _ _ _ rfl rfl rfl).trans (if_pos h)]
  generalize hu : ({ s with budget := _ } : State) = u
  have only := u.curtainsOnly_retryCurtains
  have kept := fun c => u.keepsGrant_retryCurtains c
  have filled := u.retryCurtains_fills
  generalize u.retryCurtains = t at only kept filled
  have reached : s.ChecksOnly u := by rw [← hu]; exact Eq.refl _
  refine ⟨reached.trans only.checksOnly, ?_, fun c on => kept c (by rw [← hu]; exact on), filled⟩
  rw [only, ← hu]
  rfl

/-- A zone whose check is made: its stages above the request off where the request had gone, as they were otherwise; where
stages were switched off, no curtain left waiting fits. -/
def State.ZoneChecked (s : State) (z : Fin 8) (t : State) : Prop :=
  (s.RequestGone z → t.budget.zones.get z = (s.budget.zones.get z).switchedTo (s.budget.demandOf z).heat
    ∧ ∀ c, ¬ t.CurtainFits c)
  ∧ (¬ s.RequestGone z → t.budget.zones.get z = s.budget.zones.get z)

theorem State.stageCheck_others (s : State) {y : Fin 8} (h : z ≠ y) :
    (s.stageCheck z).budget.zones.get y = s.budget.zones.get y := by
  by_cases gone : s.RequestGone z
  · rw [(State.stageCheck_switches gone).zones]
    exact Table.get_set_other _ _ _ _ h
  · rw [State.stageCheck_stands gone]

theorem State.stageCheck_filled (s : State) (z : Fin 8) (filled : ∀ c, ¬ s.CurtainFits c) :
    ∀ c, ¬ (s.stageCheck z).CurtainFits c := by
  by_cases gone : s.RequestGone z
  · exact (State.stageCheck_switches gone).filled
  · rw [State.stageCheck_stands gone]
    exact filled

/-- A zone's check made among the others: it finds the zone as it stood at first. -/
theorem State.ChecksOnly.stageCheck (only : s.ChecksOnly t) (kept : ∀ c, s.KeepsGrant t c)
    (stands : t.budget.zones.get z = s.budget.zones.get z) :
    (s.ChecksOnly (t.stageCheck z) ∧ ∀ c, s.KeepsGrant (t.stageCheck z) c) ∧ s.ZoneChecked z (t.stageCheck z) := by
  have demand : t.budget.demandOf z = s.budget.demandOf z := by rw [only]; rfl
  have minOn : t.budget.minOn = s.budget.minOn := by rw [only]
  have same : t.RequestGone z ↔ s.RequestGone z := by
    unfold State.RequestGone
    rw [stands, demand, minOn]
  by_cases gone : t.RequestGone z
  · have off := State.stageCheck_switches gone
    generalize t.stageCheck z = v at off
    refine ⟨⟨only.trans off.only, fun c on => off.keeps c (kept c on)⟩, fun _ => ⟨?_, off.filled⟩,
      fun not => absurd (same.mp gone) not⟩
    rw [off.zones, Table.get_set_same, stands, demand]
  · rw [State.stageCheck_stands gone]
    exact ⟨⟨only, kept⟩, fun was => absurd (same.mpr was) gone, fun _ => stands⟩

theorem State.stageChecks_each (s : State) : (s.ChecksOnly s.stageChecks ∧ ∀ c, s.KeepsGrant s.stageChecks c)
    ∧ ∀ z, s.ZoneChecked z s.stageChecks := by
  have every := foldl_each (P := fun t => s.ChecksOnly t ∧ ∀ c, s.KeepsGrant t c)
    (fresh := fun z t => t.budget.zones.get z = s.budget.zones.get z) (done := s.ZoneChecked)
    (f := fun t z => State.stageCheck t z) (fun t z h stands => h.1.stageCheck h.2 stands)
    (fun t y z other stands => (t.stageCheck_others other).trans stands)
    (fun t y z other checked => ⟨fun gone => ⟨(t.stageCheck_others other).trans (checked.1 gone).1,
        t.stageCheck_filled y (checked.1 gone).2⟩, fun not => (t.stageCheck_others other).trans (checked.2 not)⟩)
    (List.nodup_finRange 8) (b := s) ⟨Eq.refl s, fun _ => id⟩ fun _ _ => rfl
  exact ⟨every.1, fun z => every.2 z (List.mem_finRange z)⟩

theorem stagesChecked_spec : Claims.StagesChecked := by
  refine ⟨State.stageCheck_eq, fun s => rfl, fun s t ht => ?_⟩
  have grants := s.grantsOnly_stageChecks
  obtain ⟨⟨only, kept⟩, checked⟩ := s.stageChecks_each
  rw [← ht] at grants only kept checked
  refine ⟨grants, by rw [only], by rw [only], by rw [only], by rw [only], fun z g h hg hh => ?_, kept, ?_⟩
  · subst hg hh
    refine ⟨fun gone => ((checked z).1 gone).1, fun not => (checked z).2 fun gone => ?_⟩
    obtain ⟨less, past⟩ := gone
    omega
  · rintro ⟨z, gone⟩ c active waits
    by_contra fits
    exact ((checked z).1 gone).2 c ⟨active, waits, Int.not_lt.mp fits⟩

/-- Settles O48. -/
theorem stageTimesAndBudgetRead : Obligations.StageTimesAndBudgetRead :=
  ⟨stageTimesAndBudgetReadCalls_spec, stagesChecked_spec⟩

end Sys2Proof.Machine
end

section
/-! SUPPORT. One lighting event of one group: the calls that make it, what it leaves of the groups, how its request reaches the
allocator, and occupancy (R124, R131 to R144). -/

namespace Sys2Proof.Machine

variable {s t u v : State} {k : CallKind} {o : Origin} {g : Fin 24} {q : LightRequest}

/-! ### GROUP_OVERRIDE and GROUP_RELEASE (R141, R142) -/

/-- A call that makes a lighting event of one group: the event, the answer, then the event's request. -/
theorem State.runCall_group {α : Type} {own : α → State → Taken} {a : α} {r : Reply} {x : Group} (admits : s.Admits k o)
    (e : own a (s.unanswered o) = (s.unanswered o).groupCall g x r) {h : Handed}
    (event : h = (s.unanswered o).groupsDo [g] fun s g _ => recomputed s g x) :
    s.runCall k o (some a) own = .next (Handed.settle (h.1.answer k o r, h.2)) := by
  rw [event]
  refine (State.runCall_taken admits a own).trans ?_
  have taken : own a (s.setReceiver o.link .hunting) = (s.unanswered o).groupCall g x r := e
  rw [taken]
  rfl

theorem okOrClamped_either (p q m n : Nat) :
    okOrClamped (p != q || m != n) = if p = q ∧ m = n then .ok else .clamped := by
  by_cases left : p = q <;> by_cases right : m = n <;> simp [okOrClamped, left, right]

theorem groupOverrideAndRelease_spec : Claims.GroupOverrideAndRelease := by
  refine ⟨fun s o a g x level m h admits hg hx hl hm hh => ?_, fun s o a g x h admits hg hx hh => ?_,
    fun s o a admits outside => ?_, fun s o a admits outside => ?_⟩
  · have taken : ownGroupOverride a (s.unanswered o) = if x.state = .disabled then .turnedAway (s.unanswered o) .range
        else (s.unanswered o).groupCall g { x with state := .overridden, override := some ⟨level, 60 * m⟩ }
          ⟨if level = a.level.toNat ∧ m = a.minutes.toNat then .ok else .clamped,
            .groupOverride level ((s.clock.weekSecond + 60 * m) % 604800)⟩ := by
      unfold ownGroupOverride
      rw [row_of_val hg, ← okOrClamped_either, hl, hm, hx]
      rfl
    split
    · next dark => exact State.runCall_turnedAway admits (taken.trans (if_pos dark))
    · next lit => exact State.runCall_group admits (taken.trans (if_neg lit)) hh
  · have taken : ownGroupRelease a (s.unanswered o) = if x.state = .overridden then
        (s.unanswered o).groupCall g { x with override := none, state := if x.hold = some 0 then .vacant else .lit }
          ⟨.ok, .bare⟩
        else { state := s.unanswered o, reply := ⟨.ok, .bare⟩ } := by
      unfold ownGroupRelease
      rw [row_of_val hg, hx]
      rfl
    split
    · next held => exact State.runCall_group admits (taken.trans (if_pos held)) hh
    · next free => exact State.runCall_answers admits s (taken.trans (if_neg free))
  · refine State.runCall_turnedAway admits ?_
    unfold ownGroupOverride
    rw [row_outside outside]
  · refine State.runCall_turnedAway admits ?_
    unfold ownGroupRelease
    rw [row_outside outside]

/-! ### The event of one group (R138, R139) -/

theorem State.groupsDo_one (s : State) (g : Fin 24) (f : State → Fin 24 → Group → Group) :
    s.groupsDo [g] f = s.putGroup g (f s g (s.lighting.groups.get g)) := rfl

/-- From the group's record recomputed, an event of one group moves grants alone. -/
theorem State.grantsOnly_putGroup (s : State) (g : Fin 24) (y : Group) :
    State.GrantsOnly { s with lighting := { s.lighting with groups := s.lighting.groups.set g y } } (s.putGroup g y).1 := by
  rw [State.putGroup_state]
  refine State.grantsOnly_lamps _ (s.lighting.groups.set g (y.requesting (s.scene g))) _ fun i => ?_
  dsimp only
  rw [Table.get_set, Table.get_set]
  split
  · exact ⟨y.requesting_kept _, rfl, rfl⟩
  · exact ⟨⟨rfl, rfl, rfl, rfl, rfl⟩, rfl, rfl⟩

theorem State.grantsOnly_answer (s : State) (k : CallKind) (o : Origin) (r : Reply) : s.GrantsOnly (s.answer k o r) :=
  s.grantsOnly_links _ (LinkInterface.grows_offer _ _ _)

/-- A group whose record holds the request it makes (R139). -/
def State.Requested (s : State) (g : Fin 24) : Prop :=
  ((s.lighting.groups.get g).floorRequest, (s.lighting.groups.get g).levelRequest)
    = (s.lighting.groups.get g).requestNow (s.scene g)

theorem State.requested_setGroup (s : State) (g i : Fin 24) (y : Group) (h : s.Requested g) :
    (s.setGroup i (y.requesting (s.scene i))).Requested g := by
  have row : (s.setGroup i (y.requesting (s.scene i))).lighting.groups.get g
      = if i = g then y.requesting (s.scene i) else s.lighting.groups.get g := Table.get_set _ _ _ _
  have scene : (s.setGroup i (y.requesting (s.scene i))).scene g = s.scene g := rfl
  unfold State.Requested
  rw [row, scene]
  split
  · next same => subst same; rfl
  · exact h

theorem State.requested_putGroup (s : State) (g : Fin 24) (y : Group) : (s.setGroup g (y.requesting (s.scene g))).Requested g := by
  have row : (s.setGroup g (y.requesting (s.scene g))).lighting.groups.get g = y.requesting (s.scene g) :=
    Table.get_set_same _ _ _
  unfold State.Requested
  rw [row]
  rfl

theorem State.requested_lightRequest (s : State) (q : LightRequest) (g : Fin 24) (h : s.Requested g) :
    (s.lightRequest q).Requested g := by
  have groups : (s.lightRequest q).lighting.groups = s.lighting.groups :=
    congrArg (fun v => v.1.groups) (s.lampView_lightRequest q)
  have scene := (s.grantsOnly_lightRequest q).toCycleOnly.scene g
  unfold State.Requested
  rw [groups, scene]
  exact h

theorem Handed.requested_settle {h : Handed} (requested : h.1.Requested g) : h.settle.Requested g :=
  State.exchange_keeps (fun s t => s.Requested g → t.Requested g) (fun _ => id) (fun h k r => k (h r))
    (fun s q => s.requested_lightRequest q g) (fun s i => s.requested_setGroup g i _) _ _ _ requested

/-! ### The daylight trim (R136) -/

theorem Daylight.trimFor_unusable {d : Daylight} (lost : d.reading.status = .lost) (base floor : Nat) : d.trimFor base floor = 0 := by
  have unusable : ¬ d.reading.usable = true := by simp [Reading.usable, lost]
  unfold Daylight.trimFor
  cases d.reading.value with
  | none => rfl
  | some lux => exact if_neg fun both => unusable both.1

theorem Daylight.trimFor_usable {d : Daylight} (usable : d.reading.status ≠ .lost) {lux : Nat} (value : d.reading.value = some lux)
    (base floor : Nat) : d.trimFor base floor
      = if d.luxStart < lux then min ((lux - d.luxStart) * d.gain / 1000) (base - floor) else 0 := by
  have used : d.reading.usable = true := by simp [Reading.usable, usable]
  unfold Daylight.trimFor
  rw [value]
  exact if_congr (and_iff_right used) rfl rfl

theorem Group.trimNow_usable {x : Group} {sc : Scene} {d : Daylight} {lux base : Nat} (trimmed : x.config.trimmed = true)
    (state : x.state = .lit ∧ base = sc.level ∨ x.state = .vacant ∧ base = sc.vacant) (usable : d.reading.status ≠ .lost)
    (value : d.reading.value = some lux) : x.trimNow sc d
      = if d.luxStart < lux then min ((lux - d.luxStart) * d.gain / 1000) (base - sc.floor) else 0 := by
  rw [← Daylight.trimFor_usable usable value]
  unfold Group.trimNow
  rcases state with ⟨lit, rfl⟩ | ⟨vacant, rfl⟩
  · rw [trimmed, lit]
  · rw [trimmed, vacant]

theorem Group.trimNow_none {x : Group} {d : Daylight} (sc : Scene)
    (none : x.config.trimmed = false ∨ x.state = .overridden ∨ x.state = .disabled ∨ d.reading.status = .lost) :
    x.trimNow sc d = 0 := by
  unfold Group.trimNow
  rcases none with plain | held | dark | lost
  · rw [plain]
  · rw [held]; cases x.config.trimmed <;> rfl
  · rw [dark]; cases x.config.trimmed <;> rfl
  · rw [Daylight.trimFor_unusable lost, Daylight.trimFor_unusable lost]
    cases x.config.trimmed <;> cases x.state <;> rfl

/-! ### What the event leaves (R135 to R139) -/

theorem groupEventsRecompute_spec : Claims.GroupEventsRecompute := by
  intro s t k o r g x h hh ht
  have put : h = s.putGroup g (x.recompute (s.scene g) s.lighting.taken) := hh
  have handed := s.grantsOnly_putGroup g (x.recompute (s.scene g) s.lighting.taken)
  have requested : h.1.Requested g := by
    rw [put, State.putGroup_state]
    exact s.requested_putGroup g _
  rw [← put] at handed
  have grants := (handed.trans (h.1.grantsOnly_answer k o r)).trans (Handed.grantsOnly_settle (h.1.answer k o r, h.2))
  have final : t.Requested g := by
    rw [ht]
    exact Handed.requested_settle (h := (h.1.answer k o r, h.2)) requested
  rw [← ht] at grants
  obtain ⟨config, state, hold, override, -⟩ := grants.groups g
  obtain ⟨trim, desired⟩ := grants.desired g
  have scene : t.scene g = s.scene g := grants.toCycleOnly.scene g
  rw [Table.get_set_same] at config state hold override trim desired
  obtain ⟨config', state', hold', override', -, trim', desired'⟩ := x.recompute_spec (s.scene g) s.lighting.taken
  refine ⟨config.trans config', state.trans state', hold.trans hold', override.trans override', ?_, ?_, ?_, ?_, ?_, grants⟩
  · rw [desired, desired', trim, trim']
    rfl
  · intro lux base trimmed base' usable value
    rw [trim, trim']
    exact Group.trimNow_usable trimmed base' usable value
  · intro none
    rw [trim, trim']
    exact Group.trimNow_none _ none
  · unfold State.Requested at final
    rw [final, scene]
    unfold Group.requestNow
    rw [state.trans state']
  · intro i other
    obtain ⟨config, state, hold, override, -⟩ := grants.groups i
    obtain ⟨-, desired⟩ := grants.desired i
    rw [Table.get_set_other _ _ _ _ other.symm] at config state hold override desired
    exact ⟨config, state, hold, override, desired⟩

/-! ### The request taken by the allocator (R124) -/

/-- The floor and the level every group has requested, as another state's allocator holds them. -/
def State.SameRequests (s t : State) : Prop :=
  ∀ g, (t.budget.groups.get g).floorRequest = (s.budget.groups.get g).floorRequest
    ∧ (t.budget.groups.get g).levelRequest = (s.budget.groups.get g).levelRequest

theorem State.SameRequests.trans (h : s.SameRequests t) (k : t.SameRequests u) : s.SameRequests u :=
  fun g => ⟨(k g).1.trans (h g).1, (k g).2.trans (h g).2⟩

theorem State.sameRequests_pass (s : State) : s.SameRequests s.pass := fun g => by
  have row : s.pass.budget.groups.get g = { s.budget.groups.get g with level := s.passGrants.levels.get g } :=
    Table.get_mapIdx _ _ _
  rw [row]
  exact ⟨rfl, rfl⟩

theorem State.sameRequests_retryCurtains (s : State) : s.SameRequests s.retryCurtains := by
  have only := s.curtainsOnly_retryCurtains
  generalize s.retryCurtains = t at only
  exact fun g => by rw [only]; exact ⟨rfl, rfl⟩

theorem State.sameRequests_lightRequest (s : State) (q : LightRequest) : (s.applyRequest q).SameRequests (s.lightRequest q) := by
  have passed (t : State) : t.SameRequests (if t.budget.overdrawn then t.pass else t) := by
    split
    · exact t.sameRequests_pass
    · exact fun _ => ⟨rfl, rfl⟩
  have raised (t : State) (b : Bool) : t.SameRequests (t.raiseIf b .overcap) := by
    cases b <;> exact fun _ => ⟨rfl, rfl⟩
  have retried (t : State) (p : Prop) [Decidable p] : t.SameRequests (if p then t.retryCurtains else t) := by
    split
    · exact t.sameRequests_retryCurtains
    · exact fun _ => ⟨rfl, rfl⟩
  unfold State.lightRequest; dsimp only
  exact ((raised _ _).trans (passed _)).trans (retried _ _)

theorem State.lightRequest_own (s : State) (q : LightRequest) :
    ((s.lightRequest q).budget.groups.get q.group).floorRequest = q.floor
    ∧ ((s.lightRequest q).budget.groups.get q.group).levelRequest = max q.floor q.level := by
  obtain ⟨floor, level⟩ := s.sameRequests_lightRequest q q.group
  have row : (s.applyRequest q).budget.groups.get q.group = _ := Table.get_set_same _ _ _
  rw [floor, level, row]
  exact ⟨rfl, rfl⟩

theorem State.lightRequest_floor_others (s : State) (q : LightRequest) (h : q.group ≠ g) :
    ((s.lightRequest q).budget.groups.get g).floorRequest = (s.budget.groups.get g).floorRequest := by
  rw [(s.sameRequests_lightRequest q g).1, s.applyRequest_others q h]

/-! ### The exchange (R139, R140) -/

/-- A group whose requests, taken and still to come, all name one floor. -/
structure Handed.FloorFixed (h : Handed) (g : Fin 24) (floor : Nat) : Prop where
  taken : (h.1.budget.groups.get g).floorRequest = floor
  asked : h.1.floorAsked g = floor
  named : ∀ q ∈ h.2, q.group = g → q.floor = floor

theorem Handed.floorFixed_serve {h : Handed} {floor : Nat} (asked : h.1.floorAsked g = floor)
    (named : ∀ q ∈ h.2, q.group = g → q.floor = floor)
    (taken : (h.1.budget.groups.get g).floorRequest = floor ∨ q.group = g) (own : q.group = g → q.floor = floor) :
    (h.serve q).FloorFixed g floor := by
  have requested := h.1.lightRequest_own q
  have others := h.1.lightRequest_floor_others (g := g) q
  have asks : (h.1.lightRequest q).floorAsked g = floor := ((h.1.grantsOnly_lightRequest q).floorAsked g).trans asked
  unfold Handed.serve; dsimp only
  generalize h.1.lightRequest q = v at requested others asks
  obtain ⟨budget, -, -⟩ := v.takeGrants_beside h.1
  refine ⟨?_, ((v.grantsOnly_takeGrants h.1).floorAsked g).trans asks, fun p hp same => ?_⟩
  · show ((v.takeGrants h.1).1.budget.groups.get g).floorRequest = floor
    rw [budget]
    by_cases mine : q.group = g
    · rw [← mine, requested.1, own mine]
    · rw [others mine, taken.resolve_right mine]
  · rcases List.mem_append.mp hp with old | new
    · exact named p old same
    · rw [(State.takeGrants_requests new).2, same, asks]

theorem Handed.FloorFixed.serves {floor : Nat} (qs : List LightRequest) {h : Handed} (k : h.FloorFixed g floor)
    (own : ∀ q ∈ qs, q.group = g → q.floor = floor) : (qs.foldl Handed.serve h).FloorFixed g floor :=
  foldl_invariant (P := fun h : Handed => h.FloorFixed g floor)
    (fun _ q hq k => Handed.floorFixed_serve k.asked k.named (.inl k.taken) (own q hq)) k

theorem State.exchange_floor (n : Nat) {floor : Nat} {qs : List LightRequest} (k : Handed.FloorFixed (s, qs) g floor) :
    ((s.exchange n qs).budget.groups.get g).floorRequest = floor := by
  induction n generalizing s qs with
  | zero => exact k.taken
  | succ n ih =>
    unfold State.exchange
    split
    · exact k.taken
    · have start : Handed.FloorFixed (s, []) g floor := ⟨k.taken, k.asked, fun _ none => absurd none List.not_mem_nil⟩
      exact ih (start.serves qs k.named)

theorem State.exchange_nil (n : Nat) (s : State) : s.exchange n [] = s := by
  cases n <;> rfl

theorem State.exchange_one (n : Nat) (s : State) (q : LightRequest) : s.exchange (n + 1) [q]
    = ((s.lightRequest q).takeGrants s).1.exchange n ((s.lightRequest q).takeGrants s).2 := rfl

/-- One request settled: it is taken with the levels it changes, then what they bring. -/
theorem Handed.settle_one (s : State) (q : LightRequest) : Handed.settle (s, [q])
    = ((s.lightRequest q).takeGrants s).1.exchange 4095 ((s.lightRequest q).takeGrants s).2 :=
  s.exchange_one 4095 q

theorem requestsReachTheAllocator_spec : Claims.RequestsReachTheAllocator := by
  refine ⟨fun s u g x y q hy hq hu => ?_, fun s => Handed.settle_of_nil rfl, fun s t v q ht hv => ⟨fun none => ?_, fun same => ?_, fun named => ?_⟩⟩
  · have put : s.groupsDo [g] (fun s g _ => recomputed s g x) = s.putGroup g y := hy ▸ rfl
    have asks : y.requestNow (s.scene g) = (q.floor, q.level) := by
      rw [hq]
      unfold Group.requestNow
      split <;> rfl
    have own : (⟨g, q.floor, q.level⟩ : LightRequest) = q := by
      rw [hq]
      split <;> rfl
    rw [put, State.putGroup_eq]
    unfold Group.requesting
    rw [asks, own, hu]
    exact Prod.ext rfl (if_congr (Prod.mk.injEq _ _ _ _).to_iff rfl rfl)
  · obtain ⟨budget, links, doors⟩ := v.takeGrants_beside s
    have requested := s.lightRequest_own q
    rw [← hv] at requested
    have ends : t = (v.takeGrants s).1 := by
      rw [ht, Handed.settle_one, ← hv, none]
      exact State.exchange_nil _ _
    rw [ends, budget]
    exact ⟨rfl, rfl, doors, links, requested⟩
  · rw [ht, Handed.settle_one, ← hv, State.takeGrants_still fun g => (same g).symm]
    exact State.exchange_nil _ _
  · have asked : s.floorAsked q.group = q.floor := by
      unfold State.floorAsked
      rw [Group.requestNow_floor, named]
    have served := Handed.floorFixed_serve (h := (s, [])) (q := q) asked (fun _ none => absurd none List.not_mem_nil)
      (.inr rfl) fun _ => rfl
    rw [ht, Handed.settle_one]
    exact State.exchange_floor 4095 served

/-! ### Occupancy (R131 to R133) -/

theorem occupancyLights_spec : Claims.OccupancyLights := by
  refine ⟨fun s g x y active hx hy => ⟨fun quiet => ?_, fun on fresh lit holds => ?_⟩, State.doorActivity_grants⟩
  · unfold State.deliverOccupancy; dsimp only
    rw [← hx]
    refine if_neg fun taken => ?_
    simp only [Bool.and_eq_true, Bool.not_eq_true', Group.takesOccupancy_iff] at taken
    obtain ⟨⟨on, fresh⟩, lit, holds⟩ := taken
    rcases quiet with off | seen | dark | none
    · exact Bool.false_ne_true (off.symm.trans on)
    · exact Bool.false_ne_true (fresh.symm.trans seen)
    · exact lit dark
    · exact holds none
  · have occupied : Group.occupied { x with lastOccupancy := true } = y := by
      rw [hy]
      unfold Group.occupied GroupConfig.fullHold
      rw [if_neg holds]
    have takes : x.takesOccupancy = true := x.takesOccupancy_iff.mpr ⟨lit, holds⟩
    have event : s.deliverOccupancy g true
        = State.groupEvent (s.setGroup g { x with lastOccupancy := true }) g Group.occupied := by
      unfold State.deliverOccupancy; dsimp only
      rw [← hx, fresh, takes]
      rfl
    have row : (s.setGroup g { x with lastOccupancy := true }).lighting.groups.get g = { x with lastOccupancy := true } :=
      Table.get_set_same _ _ _
    have put : s.deliverOccupancy g true = Handed.settle
        ((s.setGroup g { x with lastOccupancy := true }).putGroup g (y.recompute (s.scene g) s.lighting.taken)) := by
      rw [event]
      unfold State.groupEvent
      rw [State.groupsDo_one, row, occupied]
      rfl
    have start : State.GrantsOnly
        { s with lighting := { s.lighting with
            groups := s.lighting.groups.set g (y.recompute (s.scene g) s.lighting.taken) } }
        { s.setGroup g { x with lastOccupancy := true } with lighting := { s.lighting with
            groups := (s.lighting.groups.set g { x with lastOccupancy := true }).set g
              (y.recompute (s.scene g) s.lighting.taken) } } := by
      rw [Table.set_set]
      exact State.grantsOnly_lamps _ (s.lighting.groups.set g (y.recompute (s.scene g) s.lighting.taken)) _
        fun _ => ⟨⟨rfl, rfl, rfl, rfl, rfl⟩, rfl, rfl⟩
    rw [put]
    exact (start.trans (State.grantsOnly_putGroup _ g _)).trans (Handed.grantsOnly_settle _)

/-- Settles O52. -/
theorem groupCallsAndEvents : Obligations.GroupCallsAndEvents :=
  ⟨groupOverrideAndRelease_spec, groupEventsRecompute_spec, requestsReachTheAllocator_spec, occupancyLights_spec⟩

end Sys2Proof.Machine
end

section
/-! SUPPORT. The lamp floors and the lamp caps through every step (R143, R144, R156). -/

namespace Sys2Proof.Machine

/-- A start-up starts every enabled group at its floor, whatever stood before it (R130, R144). -/
theorem State.lampFloors_invariant : State.Invariant State.LampFloors where
  calls   := fun h => h.lamps
  ticks   := fun h => h.lamps
  startUp := fun boards keep _ => State.lamps_startUp _ boards keep
  clock   := fun _ => State.lamps_of_eq rfl fun _ => rfl
  flags   := fun _ => State.lamps_of_eq rfl fun _ => rfl
  pending := fun _ => State.lamps_of_eq rfl fun _ => rfl

/-- A start-up finds every group dark with its dimmer at 0, and starts it within the grant it is given (R130, R144). -/
theorem State.lampsCapped_invariant : State.Invariant State.LampsCapped where
  calls   := fun h => h.caps
  ticks   := fun h => h.caps
  startUp := fun boards keep _ => (State.keeps_startUp _ boards keep).caps (State.reinitialised_capped _ boards _)
  clock   := fun _ => State.caps_of_eq rfl rfl
  flags   := fun _ => State.caps_of_eq rfl rfl
  pending := fun _ => State.caps_of_eq rfl rfl

/-- Settles O3: the lamp floors are an invariant of every step. -/
theorem stepKeepsLampFloors : Obligations.StepKeepsLampFloors :=
  fun _ _ floors h => State.lampFloors_invariant.step floors h

/-- Settles O4: the lamp caps are an invariant of every step. -/
theorem stepKeepsLampsCapped : Obligations.StepKeepsLampsCapped :=
  fun _ _ capped h => State.lampsCapped_invariant.step capped h

end Sys2Proof.Machine
end

section
/-! SUPPORT. GROUP_CONFIG, LIGHT_SETTINGS and GROUP_READ (R129, R130, R134, R137, R146). -/

namespace Sys2Proof.Machine

variable {s : State} {o : Origin}

/-! ### GROUP_CONFIG (R129, R130, R134) -/

/-- The dynamic part after a configuration: dark where it disables the group, started where it enables a DISABLED one, and
otherwise kept but for what a changed occupancy hold does. -/
theorem Group.reconfigured_eq (x : Group) (c : GroupConfig) : x.reconfigured c =
    if c.enabled = false then
      { x with config := c, state := .disabled, override := none, hold := none, trim := 0, desired := 0, output := 0 }
    else if x.state = .disabled then
      { x with config := c, state := .lit, override := none, hold := if c.hold = 0 then none else some (60 * c.hold) }
    else if c.hold = 0 then { x with config := c, hold := none, state := if x.state = .vacant then .lit else x.state }
    else if x.config.hold = 0 then { x with config := c, hold := some (x.hold.getD (60 * c.hold)) }
    else { x with config := c, hold := x.hold.map (min (60 * c.hold)) } := by
  unfold Group.reconfigured keptHold; dsimp only
  refine if_congr Iff.rfl rfl (if_congr Iff.rfl rfl ?_)
  by_cases none : c.hold = 0
  · simp only [none, true_and, if_true]
  · by_cases had : x.config.hold = 0
    · simp only [none, had, false_and, if_true, if_false]
    · simp only [none, had, false_and, if_false]

/-- Hold and ramp rate limited: the call is CLAMPED when either moved. -/
theorem okOrClamped_limits (m n h r : Nat) :
    okOrClamped (min m h != h || min n r != r) = if h ≤ m ∧ r ≤ n then .ok else .clamped := by
  rw [okOrClamped_either]
  exact if_congr (and_congr min_eq_right_iff min_eq_right_iff) rfl rfl

theorem ownGroupConfig_known {a : GroupConfigArgs} {g : Fin 24} {z : Fin 8} {k : GroupKind} (hg : a.group.toNat = g.val)
    (hz : a.zone.toNat = z.val) (hk : a.kind = some k) (linked : ¬ (a.doorLinked = true ∧ k = .aisle)) {x : Group}
    (hx : x = s.lighting.groups.get g) {c : GroupConfig}
    (hc : c = ⟨a.enabled, z, k, a.doorLinked, a.trimmed, min 120 a.hold.toNat, min 100 a.rampRate.toNat⟩) :
    ownGroupConfig a s = if x.state = .disabled ∨ s.zoneMode x.config.zone = .off then
        s.groupCall g (x.reconfigured c)
          ⟨if a.hold.toNat ≤ 120 ∧ a.rampRate.toNat ≤ 100 then .ok else .clamped, .groupConfig c⟩
      else .turnedAway s .active := by
  unfold ownGroupConfig
  rw [row_of_val hg, row_of_val hz, hk]
  dsimp only
  rw [if_neg linked, okOrClamped_limits, ← hx, ← hc]
  by_cases free : x.state = .disabled ∨ s.zoneMode x.config.zone = .off
  · rw [if_pos free, if_neg fun active => free.elim active.1 active.2]
  · rw [if_neg free, if_pos (not_or.mp free)]

theorem ownGroupConfig_range {a : GroupConfigArgs}
    (out : 23 < a.group.toNat ∨ 7 < a.zone.toNat ∨ a.kind = none ∨ (a.doorLinked = true ∧ a.kind = some .aisle)) :
    ownGroupConfig a s = .turnedAway s .range := by
  unfold ownGroupConfig
  split
  · next g z k hg hz hk =>
    rw [row_eq_some_iff] at hg hz
    rcases out with group | zone | unknown | ⟨linked, aisle⟩
    · omega
    · omega
    · rw [unknown] at hk; cases hk
    · rw [aisle] at hk
      cases hk
      exact if_pos ⟨linked, rfl⟩
  · rfl

/-- Settles O51: RANGE is judged before ACTIVE, and a call neither refuses is one lighting event of its group. -/
theorem groupConfigCall : Obligations.GroupConfigCall := by
  refine ⟨fun s o a g z k x y c r h admits hg hz hk linked hx hc hr hy hh => ?_,
    fun s o a admits out => State.runCall_turnedAway admits (ownGroupConfig_range out)⟩
  have taken := ownGroupConfig_known (s := s.unanswered o) hg hz hk linked hx hc
  rw [Group.reconfigured_eq, ← hy, ← hr] at taken
  split
  · next free => exact State.runCall_group admits (taken.trans (if_pos free)) hh
  · next active => exact State.runCall_turnedAway admits (taken.trans (if_neg active))

/-! ### LIGHT_SETTINGS and GROUP_READ (R137, R146) -/

theorem exec_lightSettings (h : s.Admits .lightSettings o) (a : LightSettingsArgs) {lux gain : Nat}
    (hlux : lux = (a.luxStart.map BitVec.toNat).getD s.lighting.luxStart)
    (hgain : gain = (a.gain.map BitVec.toNat).getD s.lighting.gain) :
    exec (.lightSettings o (some a)) s
      = .next (State.answered { s with lighting := { s.lighting with luxStart := lux, gain := gain } } .lightSettings o
          ⟨.ok, .light lux gain⟩) := by
  refine State.runCall_answers h { s with lighting := { s.lighting with luxStart := lux, gain := gain } } ?_
  subst hlux hgain
  rfl

theorem exec_groupRead_known (h : s.Admits .groupRead o) (a : IndexArgs) {g : Fin 24} (hg : a.index.toNat = g.val)
    {x : Group} (hx : x = s.lighting.groups.get g) :
    exec (.groupRead o (some a)) s = .next (s.answered .groupRead o ⟨.ok, .group
      { group := x, scene := s.scene g, base := sceneBase (s.scene g) x.state
        overrideEnd := x.override.map fun v => endTime s.now v.seconds
        daylight := s.lighting.taken.reading.status }⟩) := by
  refine State.runCall_answers h s ?_
  unfold ownGroupRead
  rw [row_of_val hg, hx]
  rfl

theorem exec_groupRead_outside (h : s.Admits .groupRead o) (a : IndexArgs) (outside : 23 < a.index.toNat) :
    exec (.groupRead o (some a)) s = .next (s.answered .groupRead o ⟨.range, .bare⟩) := by
  refine State.runCall_turnedAway h ?_
  unfold ownGroupRead
  rw [row_outside (n := 24) outside]

/-- Settles O54. -/
theorem lightSettingsAndGroupRead : Obligations.LightSettingsAndGroupRead := by
  refine ⟨fun s o a lux gain h hlux hgain => exec_lightSettings h a ?_ ?_,
    fun s o a h => ⟨fun g x hg hx => ?_, exec_groupRead_outside h a⟩⟩
  · rw [hlux]; cases a.luxStart <;> rfl
  · rw [hgain]; cases a.gain <;> rfl
  · rw [exec_groupRead_known h a hg hx]
    cases x.state <;> rfl

end Sys2Proof.Machine
end

section
/-! SUPPORT. The Lighting Unit's second boundary, HOLD_EXPIRY and GROUP_OVERRIDE_END, and how an output follows its target (R130,
R133, R135, R136, R138 to R140, R142 to R144). -/

namespace Sys2Proof.Machine

variable {s : State} {x : Group}

/-! ### One group's second (R130, R133, R142, R143) -/

theorem secondCounted_eq (x : Group) : Claims.secondCounted x = x.countOverride.countHold := rfl

theorem Group.countOverride_rest (x : Group) : x.countOverride.config = x.config ∧ x.countOverride.hold = x.hold
    ∧ x.countOverride.override = (match x.override with
      | some v => if v.seconds ≤ 1 then none else some { v with seconds := v.seconds - 1 }
      | none => none) := by
  unfold Group.countOverride Group.endOverride
  cases overrides : x.override with
  | none => exact ⟨rfl, rfl, overrides⟩
  | some v =>
    dsimp only
    split <;> exact ⟨rfl, rfl, rfl⟩

theorem Group.countHold_rest (x : Group) : x.countHold.config = x.config ∧ x.countHold.override = x.override
    ∧ x.countHold.hold = (match x.hold with | some (n + 1) => some n | n => n) := by
  unfold Group.countHold
  rcases hold : x.hold with _ | _ | n
  · exact ⟨rfl, rfl, hold⟩
  · exact ⟨rfl, rfl, hold⟩
  · exact ⟨rfl, rfl, rfl⟩

theorem Group.countHold_expires (lit : x.state = .lit) (last : x.hold = some 1) :
    x.countHold = { x with hold := some 0, state := .vacant } := by
  unfold Group.countHold
  rw [last]
  exact congrArg (fun st => { x with hold := some 0, state := st }) (if_pos (And.intro rfl lit))

theorem Group.countOverride_none (none : x.override = none) : x.countOverride = x := by
  unfold Group.countOverride; rw [none]

theorem Group.countOverride_ends {v : GroupOverride} (held : x.override = some v) (ends : v.seconds ≤ 1) :
    x.countOverride = x.endOverride := by
  unfold Group.countOverride; rw [held]; exact if_pos ends

theorem Group.endOverride_counted (x : Group) :
    x.endOverride.countHold.state = if x.hold = some 0 ∨ x.hold = some 1 then .vacant else .lit := by
  unfold Group.countHold Group.endOverride
  rcases x.hold with _ | _ | _ | n <;> simp

theorem Group.rampStep_only (x : Group) : x.rampStep = { x with output := x.rampStep.output } := by
  unfold Group.rampStep
  split_ifs <;> rfl

/-- An enabled group's second is its counting down, with levels formed anew. -/
theorem Group.second_kept (x : Group) (sc : Scene) (d : Daylight) (on : x.state ≠ .disabled) :
    x.countOverride.countHold.Kept (x.second sc d) := by
  have ramped : x.second sc d = (x.countOverride.countHold.recompute sc d).rampStep := if_neg on
  rw [ramped, Group.rampStep_only]
  obtain ⟨config, state, hold, override, occupancy⟩ := x.countOverride.countHold.recompute_kept sc d
  exact ⟨config, state, hold, override, occupancy⟩

/-! ### The second boundary of the unit (R138) -/

/-- The daylight a second boundary takes (R138). -/
def State.daylightNow (s : State) : Daylight :=
  ⟨s.sensors.reading s.sensors.map.daylight, s.lighting.luxStart, s.lighting.gain⟩

/-- Every group put as its second leaves it, with the daylight taken and the dimmers at the outputs (R138, R139, R143). -/
def State.lampsAged (s : State) : State :=
  { s with
    lighting := { s.lighting with
      taken := s.daylightNow
      groups := s.lighting.groups.mapIdx fun g x => (x.second (s.scene g) s.daylightNow).requesting (s.scene g) }
    lines := { s.lines with dimmers := s.lines.dimmers.mapIdx fun g _ =>
      ((s.lighting.groups.get g).second (s.scene g) s.daylightNow).output } }

/-- The second boundary is every group put once, then the new requests taken. -/
theorem State.lightSecond_eq (s : State) : s.lightSecond = Handed.settle (s.lampsAged, (indices 24).filterMap fun g =>
    ((s.lighting.groups.get g).second (s.scene g) s.daylightNow).handed (s.scene g) g) := by
  have event := State.groupsDo_each (fun s g x => x.second (s.scene g) s.lighting.taken)
    (fun g x => x.second (s.scene g) s.daylightNow) s.takeDaylight
    (by
      intro u g x calendar taken
      unfold State.scene State.sceneOf State.phase
      rw [calendar, taken]
      rfl)
    (indices 24) (List.nodup_finRange 24)
  simp only [mem_indices, if_true] at event
  unfold State.lightSecond
  rw [event]
  rfl

theorem State.lightSecond_taken (s : State) : s.lightSecond.lighting.taken = s.daylightNow := by
  obtain ⟨-, -, taken⟩ := (Handed.grantsOnly_settle (s.lampsAged, _)).light
  rw [State.lightSecond_eq]
  exact taken

/-- From the groups' records as their seconds leave them, a second boundary moves grants alone. -/
theorem State.lightSecond_grants (s : State) : State.GrantsOnly
    { s with lighting := { s.lighting with
      taken := s.lightSecond.lighting.taken
      groups := s.lighting.groups.mapIdx fun i x => x.second (s.scene i) s.lightSecond.lighting.taken } } s.lightSecond := by
  rw [State.lightSecond_taken, State.lightSecond_eq]
  refine .trans (State.grantsOnly_lamps _ s.lampsAged.lighting.groups s.lampsAged.lines.dimmers fun g => ?_)
    (Handed.grantsOnly_settle (s.lampsAged, _))
  have aged : s.lampsAged.lighting.groups.get g = _ := Table.get_mapIdx _ _ _
  dsimp only
  rw [aged, Table.get_mapIdx]
  exact ⟨Group.requesting_kept _ _, rfl, rfl⟩

/-- What a second boundary leaves of an enabled group's configuration, state, hold and override. -/
theorem State.lightSecond_kept (s : State) (g : Fin 24) (on : (s.lighting.groups.get g).state ≠ .disabled) :
    (s.lighting.groups.get g).countOverride.countHold.Kept (s.lightSecond.lighting.groups.get g) := by
  obtain ⟨config, state, hold, override, occupancy⟩ := s.lightSecond_grants.groups g
  dsimp only at config state hold override occupancy
  rw [Table.get_mapIdx] at config state hold override occupancy
  obtain ⟨config', state', hold', override', occupancy'⟩ :=
    (s.lighting.groups.get g).second_kept (s.scene g) s.lightSecond.lighting.taken on
  exact ⟨config.trans config', state.trans state', hold.trans hold', override.trans override',
    occupancy.trans occupancy'⟩

theorem lampSecondInFull_spec : Claims.LampSecondInFull := by
  intro s v light y q hlight hy hq hv
  have seconds (g : Fin 24) : (s.lighting.groups.get g).second (s.scene g) s.daylightNow = y g := by
    rw [hy, hlight]
    simp only [secondCounted_eq]
    rfl
  have asks (g : Fin 24) : (y g).requestNow (s.scene g) = ((q g).floor, (q g).level) := by
    rw [hq]
    unfold Group.requestNow; dsimp only
    split <;> rfl
  have own (g : Fin 24) : (⟨g, (q g).floor, (q g).level⟩ : LightRequest) = q g := by
    rw [hq]; dsimp only
    split <;> rfl
  have aged : s.lampsAged = v := by
    have groups : s.lampsAged.lighting.groups
        = Table.ofFn fun g => { y g with floorRequest := (q g).floor, levelRequest := (q g).level } := Table.ext_get fun g => by
      unfold State.lampsAged Group.requesting; dsimp only
      rw [Table.get_mapIdx, Table.get_ofFn, seconds, asks]
    have dimmers : s.lampsAged.lines.dimmers = Table.ofFn fun g => (y g).output := Table.ext_get fun g => by
      unfold State.lampsAged; dsimp only
      rw [Table.get_mapIdx, Table.get_ofFn, seconds]
    rw [hv, ← groups, ← dimmers, hlight]
    rfl
  have requests (g : Fin 24) : ((s.lighting.groups.get g).second (s.scene g) s.daylightNow).handed (s.scene g) g
      = if (q g).floor = (y g).floorRequest ∧ (q g).level = (y g).levelRequest then none else some (q g) := by
    rw [seconds]
    unfold Group.handed
    rw [asks, own]
    exact if_congr (Prod.mk.injEq _ _ _ _).to_iff rfl rfl
  rw [State.lightSecond_eq, aged]
  simp only [requests]

/-! ### HOLD_EXPIRY and GROUP_OVERRIDE_END (R133, R142) -/

/-- A row that names an event of the owed second boundary which is due takes that boundary. -/
theorem State.run_lightSecond (running : s.power = .running) (owed : .lighting ∈ s.owed) {due : State → Bool}
    (ending : due s = true) : s.run (fun s => s.takeNamed .lighting (due s))
      = .next (State.lightSecond { s with owed := s.owed.erase .lighting }) := by
  rw [State.run_running running, ending, State.takeNamed_due owed]
  rfl

theorem Group.holdEnding_iff (x : Group) : x.holdEnding = true ↔ x.state = .lit ∧ x.hold = some 1 := by
  simp [Group.holdEnding]

theorem Group.overrideEnding_iff (x : Group) : x.overrideEnding = true ↔ ∃ v, x.override = some v ∧ v.seconds ≤ 1 := by
  simp [Group.overrideEnding, Option.any_eq_true]

theorem lampSecondsEnd_spec : Claims.LampSecondsEnd := by
  intro s u g x running owed hx hu
  have groups : u.lighting.groups = s.lighting.groups := by rw [hu]
  have kept (i : Fin 24) (on : (s.lighting.groups.get i).state ≠ .disabled) :
      (s.lighting.groups.get i).countOverride.countHold.Kept (u.lightSecond.lighting.groups.get i) := by
    have counted := u.lightSecond_kept i
    rw [groups] at counted
    exact counted on
  refine ⟨fun lit last none => ⟨?_, ?_⟩, fun v held overrides ends => ⟨?_, ?_⟩, fun i on => ?_, ?_,
    u.lightSecond_grants⟩
  · rw [hu]
    exact State.run_lightSecond running owed (due := fun s => (s.lighting.groups.get g).holdEnding)
      ((Group.holdEnding_iff _).mpr (hx ▸ ⟨lit, last⟩))
  · have counted := kept g (by rw [← hx, lit]; exact nofun)
    rw [← hx, Group.countOverride_none none, Group.countHold_expires lit last] at counted
    exact ⟨counted.state, counted.hold⟩
  · rw [hu]
    exact State.run_lightSecond running owed (due := fun s => (s.lighting.groups.get g).overrideEnding)
      ((Group.overrideEnding_iff _).mpr (hx ▸ ⟨v, overrides, ends⟩))
  · have counted := kept g (by rw [← hx, held]; exact nofun)
    rw [← hx, Group.countOverride_ends overrides ends] at counted
    obtain ⟨-, override, -⟩ := x.endOverride.countHold_rest
    exact ⟨counted.override.trans override, counted.state.trans x.endOverride_counted⟩
  · have counted := kept i on
    obtain ⟨config, hold, override⟩ := (s.lighting.groups.get i).countOverride_rest
    obtain ⟨config', override', hold'⟩ := (s.lighting.groups.get i).countOverride.countHold_rest
    rw [hold] at hold'
    exact ⟨(counted.config.trans config').trans config, counted.hold.trans hold',
      (counted.override.trans override').trans override⟩
  · rw [State.lightSecond_taken, hu]
    rfl

/-! ### How an output follows its target (R135, R136, R140, R143, R144) -/

/-- With ramp rate 0 an output jumps to a target that has moved; otherwise it stands (R143). -/
theorem Group.followTarget_spec (x : Group) (old : Nat) : x.followTarget old = { x with output := (x.followTarget old).output }
    ∧ (x.config.rampRate ≠ 0 → (x.followTarget old).output = x.output)
    ∧ (x.config.rampRate = 0 → min x.desired x.granted ≠ old → (x.followTarget old).output = min x.desired x.granted)
    ∧ (x.config.rampRate = 0 → min x.desired x.granted = old → (x.followTarget old).output = x.output) := by
  unfold Group.followTarget Group.target
  refine ⟨?_, fun ramps => ?_, fun jumps moved => ?_, fun _ stands => ?_⟩
  · split <;> rfl
  · rw [if_neg fun h => ramps h.1]
  · rw [if_pos ⟨jumps, moved⟩]
  · rw [if_neg fun h => h.2 stands]

theorem Group.rampStep_spec (x : Group) :
    (x.state = .disabled → x.rampStep = x)
    ∧ (x.state ≠ .disabled → x.rampStep = { x with output := x.rampStep.output }
      ∧ (x.config.rampRate = 0 → x.rampStep.output = min x.desired x.granted)
      ∧ (x.config.rampRate ≠ 0 → x.output < min x.desired x.granted →
          x.rampStep.output = min (min x.desired x.granted) (x.output + x.config.rampRate))
      ∧ (x.config.rampRate ≠ 0 → min x.desired x.granted ≤ x.output →
          x.rampStep.output = max (min x.desired x.granted) (x.output - x.config.rampRate))) := by
  refine ⟨fun off => if_pos off, fun on => ⟨x.rampStep_only, fun jumps => ?_, fun ramps below => ?_, fun ramps above => ?_⟩⟩
  · unfold Group.rampStep
    rw [if_neg on, if_pos jumps]
    rfl
  · unfold Group.rampStep Group.target
    rw [if_neg on, if_neg ramps, if_pos below]
  · unfold Group.rampStep Group.target
    rw [if_neg on, if_neg ramps, if_neg (Nat.not_lt.mpr above)]

theorem Group.takeGrant_spec (x : Group) (level granted : Nat) (hg : granted = max level x.floorRequest) :
    x.takeGrant level = { x with granted := granted, output := (x.takeGrant level).output }
    ∧ (x.takeGrant level).output ≤ granted
    ∧ (x.config.rampRate ≠ 0 → (x.takeGrant level).output = min x.output granted)
    ∧ (x.config.rampRate = 0 → min x.desired granted ≠ min x.desired x.granted →
        (x.takeGrant level).output = min x.desired granted)
    ∧ (x.config.rampRate = 0 → min x.desired granted = min x.desired x.granted →
        (x.takeGrant level).output = min x.output granted) := by
  have taken : x.takeGrant level
      = Group.followTarget { x with granted := granted, output := min x.output granted } (min x.desired x.granted) := by
    rw [hg]; rfl
  obtain ⟨only, ramps, moved, stands⟩ := Group.followTarget_spec
    { x with granted := granted, output := min x.output granted } (min x.desired x.granted)
  rw [← taken] at only ramps moved stands
  refine ⟨only, ?_, ramps, moved, stands⟩
  by_cases rate : x.config.rampRate = 0
  · by_cases stand : min x.desired granted = min x.desired x.granted
    · rw [stands rate stand]; exact Nat.min_le_right _ _
    · rw [moved rate stand]; exact Nat.min_le_right _ _
  · rw [ramps rate]; exact Nat.min_le_right _ _

theorem Daylight.trimFor_eq (d : Daylight) (base floor : Nat) : d.trimFor base floor =
    if d.reading.status ≠ .lost ∧ d.luxStart < d.reading.value.getD 0
    then min ((d.reading.value.getD 0 - d.luxStart) * d.gain / 1000) (base - floor) else 0 := by
  by_cases lost : d.reading.status = .lost
  · rw [Daylight.trimFor_unusable lost, if_neg fun h => h.1 lost]
  · cases value : d.reading.value with
    | none =>
      rw [Daylight.trimFor_lost value]
      exact (if_neg fun h => Nat.not_lt_zero _ h.2).symm
    | some lux =>
      rw [Daylight.trimFor_usable lost value]
      exact if_congr (and_iff_right lost).symm rfl rfl

/-- A group's trim, from the base its state names (R135, R136). -/
theorem Group.trimNow_eq (x : Group) (sc : Scene) (d : Daylight) {base : Nat}
    (hb : base = if x.state = .lit then sc.level else sc.vacant) : x.trimNow sc d =
      if x.config.trimmed = true ∧ (x.state = .lit ∨ x.state = .vacant) ∧ d.reading.status ≠ .lost
        ∧ d.luxStart < d.reading.value.getD 0
      then min ((d.reading.value.getD 0 - d.luxStart) * d.gain / 1000) (base - sc.floor) else 0 := by
  by_cases trims : x.config.trimmed = true ∧ (x.state = .lit ∨ x.state = .vacant)
  · obtain ⟨trimmed, based⟩ := trims
    have formed : x.trimNow sc d = d.trimFor base sc.floor := by
      unfold Group.trimNow
      rcases based with lit | vacant
      · rw [trimmed, lit, hb, if_pos lit]
      · rw [trimmed, vacant, hb, if_neg (by rw [vacant]; exact nofun)]
    rw [formed, Daylight.trimFor_eq]
    exact if_congr ((and_iff_right trimmed).trans (and_iff_right based)).symm rfl rfl
  · rw [if_neg fun h => trims ⟨h.1, h.2.1⟩]
    refine Group.trimNow_none sc ?_
    cases trimmed : x.config.trimmed with
    | false => exact .inl rfl
    | true =>
      cases state : x.state with
      | lit => exact absurd ⟨trimmed, .inl state⟩ trims
      | vacant => exact absurd ⟨trimmed, .inr state⟩ trims
      | overridden => exact .inr (.inl rfl)
      | disabled => exact .inr (.inr (.inl rfl))

theorem Group.desiredNow_eq (x : Group) (sc : Scene) (d : Daylight) {base : Nat} (on : x.state ≠ .disabled)
    (hb : base = if x.state = .lit then sc.level else sc.vacant) : x.desiredNow sc d =
      max sc.floor (if x.state = .overridden then (x.override.map GroupOverride.level).getD 0 else base - x.trimNow sc d) := by
  unfold Group.desiredNow
  rw [hb]
  cases state : x.state with
  | disabled => exact absurd state on
  | overridden => exact Nat.max_comm _ _
  | lit | vacant => rfl

theorem Group.recompute_levels (x : Group) (sc : Scene) (d : Daylight) {trim desired granted : Nat} (on : x.state ≠ .disabled)
    (htrim : trim = x.trimNow sc d) (hdesired : desired = x.desiredNow sc d) (hgranted : granted = max x.granted sc.floor) :
    x.recompute sc d = { x with trim := trim, desired := desired, granted := granted, output := (x.recompute sc d).output }
    ∧ (x.config.rampRate ≠ 0 → (x.recompute sc d).output = max x.output sc.floor)
    ∧ (x.config.rampRate = 0 → min desired granted ≠ min x.desired x.granted →
        (x.recompute sc d).output = min desired granted)
    ∧ (x.config.rampRate = 0 → min desired granted = min x.desired x.granted →
        (x.recompute sc d).output = max x.output sc.floor) := by
  have formed : x.recompute sc d = Group.followTarget
      { x with trim := trim, desired := desired, granted := granted, output := max x.output sc.floor }
      (min x.desired x.granted) := by
    rw [htrim, hdesired, hgranted]
    exact if_neg on
  rw [formed]
  exact Group.followTarget_spec _ _

theorem outputsRampAndFollow_spec : Claims.OutputsRampAndFollow := by
  refine ⟨fun x y hy => hy ▸ x.rampStep_spec, fun x y level granted hy hg => hy ▸ x.takeGrant_spec level granted hg,
    fun x y sc d base trim desired granted hy hb ht hd hg => ⟨fun off => hy.trans (if_pos off), fun on => ?_⟩⟩
  rw [← x.trimNow_eq sc d hb] at ht
  rw [ht, ← x.desiredNow_eq sc d on hb] at hd
  obtain ⟨only, ramps, moved, stands⟩ := x.recompute_levels sc d on ht hd hg
  obtain ⟨output, -, grant⟩ := x.recompute_floor sc d on
  rw [← hy] at only ramps moved stands output grant
  exact ⟨only, output, grant, ramps, moved, stands⟩

/-- Settles O53. -/
theorem lampSecondsAndOutputs : Obligations.LampSecondsAndOutputs :=
  ⟨lampSecondsEnd_spec, lampSecondInFull_spec, outputsRampAndFollow_spec⟩

end Sys2Proof.Machine
end

section
/-! SUPPORT. LINE_CONFIG, LINE_DRIVE and LINE_READ: the bindings a call names, the conditions on a binding, what a binding's owner
loses and gains, and the level captured for a line (R131, R148 to R151, R153 to R155). -/

namespace Sys2Proof.Machine

variable {s : State} {o : Origin} {l : Fin 192} {m : LineMode} {b : Binding}

/-! ### The bindings a call names (R149, R150) -/

theorem row_eq_none_iff {n : Nat} {b : Byte} : row n b = none ↔ n ≤ b.toNat := by
  refine ⟨fun unnamed => not_lt.mp fun inside => ?_, row_outside⟩
  rw [row_of_val (i := ⟨b.toNat, inside⟩) rfl] at unnamed
  cases unnamed

/-- A stage is named where its zone is and its number runs from 1 to the last stage. -/
theorem stageNamed_eq_none_iff (z : Byte) (i last : Nat) (f : Fin 8 → Binding) :
    (if 1 ≤ i ∧ i ≤ last then (row 8 z).map f else none) = none ↔ 7 < z.toNat ∨ i = 0 ∨ last < i := by
  split
  · next inside =>
    rw [Option.map_eq_none_iff, row_eq_none_iff]
    omega
  · next outside =>
    have : i = 0 ∨ last < i := by omega
    simp only [this, or_true]

theorem Binding.mode_eq_input_iff (b : Binding) : b.mode = .input ↔
    (∃ d, b = .doorContact d) ∨ (∃ d, b = .trailer d) ∨ (∃ g, b = .occupancy g) ∨ b = .spareIn := by
  cases b <;> simp [Binding.mode]

theorem Binding.mode_eq_output_iff (b : Binding) : b.mode = .output ↔
    (∃ z i, b = .heat z i) ∨ (∃ z i, b = .fan z i) ∨ (∃ c, b = .curtain c) ∨ b = .spareOut := by
  cases b <;> simp [Binding.mode]

theorem Binding.exclusive_iff (b : Binding) :
    b.exclusive = true ↔ (∃ d, b = .doorContact d) ∨ (∃ d, b = .trailer d) ∨ ∃ g, b = .occupancy g := by
  cases b <;> simp [Binding.exclusive]

theorem bindingsNamed_spec : Claims.BindingsNamed := by
  refine ⟨fun b d h => ?_, fun b g h => ?_, fun b i z h first => ?_, fun b c h => ?_, rfl, rfl, Binding.mode_eq_input_iff,
    Binding.mode_eq_output_iff, Binding.exclusive_iff⟩
  · simp only [bindingOf, row_of_val h, Option.map_some, and_self]
  · simp only [bindingOf, row_of_val h, Option.map_some]
  · refine ⟨fun last => ?_, fun last => ?_⟩ <;>
      simp only [bindingOf, first, last, and_self, if_true, row_of_val h, Option.map_some]
  · simp only [bindingOf, row_of_val h, Option.map_some]

/-! ### LINE_CONFIG (R149, R150, R151) -/

/-- The conditions on a binding: the mode its function needs, no other line where it may stand on one only, and a board. -/
theorem State.mayBind_iff (s : State) (l : Fin 192) (m : LineMode) (b : Binding) : s.mayBind l m b = true ↔
    b.mode = m ∧ (∀ k, k ≠ l → b.exclusive = true → (s.lines.lines.get k).config.binding ≠ b)
      ∧ ((s.lines.boards.get (boardOf l)).present = true ∨ b = .spareIn) := by
  unfold State.mayBind Lines.board
  simp only [Bool.and_eq_true, Bool.or_eq_true, Bool.not_eq_true', Bool.and_eq_false_iff, List.any_eq_false, beq_iff_eq,
    bne_iff_ne, indices, List.mem_finRange, true_implies, not_and, and_assoc]
  refine and_congr_right' (and_congr_left' ⟨fun free k other sole => ?_, fun free => ?_⟩)
  · exact free.elim (fun shared => absurd sole (Bool.eq_false_iff.mp shared)) fun free => free k other
  · cases sole : b.exclusive
    · exact .inl rfl
    · exact .inr fun k other => free k other sole

theorem ownLineConfig_range {a : LineConfigArgs}
    (out : 191 < a.line.toNat ∨ a.mode = none ∨ bindingOf a.binding = none) : ownLineConfig a s = .turnedAway s .range := by
  unfold ownLineConfig
  split
  · next l m b hl hm hb =>
    rcases out with line | mode | binding
    · exact absurd (row_eq_none_iff (n := 192).mpr line) (hl ▸ nofun)
    · exact absurd mode (hm ▸ nofun)
    · exact absurd binding (hb ▸ nofun)
  · rfl

section
variable {a : LineConfigArgs} (hl : a.line.toNat = l.val) (hm : a.mode = some m) (hb : bindingOf a.binding = some b)
include hl hm hb

theorem ownLineConfig_refused (no : s.mayBind l m b ≠ true) : ownLineConfig a s = .turnedAway s .range := by
  unfold ownLineConfig
  rw [row_of_val hl, hm, hb]
  exact if_neg no

theorem ownLineConfig_active (may : s.mayBind l m b = true)
    (active : s.ownerActive (s.lines.lines.get l).config.binding = true ∨ s.ownerActive b = true) :
    ownLineConfig a s = .turnedAway s .active := by
  unfold ownLineConfig
  rw [row_of_val hl, hm, hb]
  exact (if_pos may).trans (if_pos (Bool.or_eq_true _ _ ▸ active))

theorem ownLineConfig_stores (may : s.mayBind l m b = true)
    (idle : ¬ (s.ownerActive (s.lines.lines.get l).config.binding = true ∨ s.ownerActive b = true)) {latch : Bool}
    (hlatch : latch = (s.functionOn b).getD (s.lines.lines.get l).latch) :
    ownLineConfig a s =
      { state := s.setLine l { s.lines.lines.get l with config := ⟨m, a.pullUp, a.invert, b⟩, latch := latch }
        reply := ⟨.ok, .line ⟨m, a.pullUp, a.invert, b⟩ latch⟩
        after := fun t => if b = (s.lines.lines.get l).config.binding then t
          else (t.unbound (s.lines.lines.get l).config.binding).newlyBound b } := by
  subst hlatch
  unfold ownLineConfig
  rw [row_of_val hl, hm, hb]
  exact (if_pos may).trans (if_neg (Bool.or_eq_true _ _ ▸ idle))

end

theorem exec_lineConfig {a : LineConfigArgs} (admits : s.Admits .lineConfig o) (hl : a.line.toNat = l.val)
    (hm : a.mode = some m) (hb : bindingOf a.binding = some b) {x : Line} (hx : x = s.lines.lines.get l) {latch : Bool}
    (hlatch : latch = (s.functionOn b).getD x.latch) {u : State}
    (hu : u = State.answered (s.setLine l { x with config := ⟨m, a.pullUp, a.invert, b⟩, latch := latch }) .lineConfig o
      ⟨.ok, .line ⟨m, a.pullUp, a.invert, b⟩ latch⟩) :
    exec (.lineConfig o (some a)) s = .next
      (if s.mayBind l m b = true then
        (if s.ownerActive x.config.binding = true ∨ s.ownerActive b = true then s.answered .lineConfig o ⟨.active, .bare⟩
        else if b = x.config.binding then u
        else (u.unbound x.config.binding).newlyBound b)
      else s.answered .lineConfig o ⟨.range, .bare⟩) := by
  subst hu hx
  by_cases may : s.mayBind l m b = true
  · rw [if_pos may]
    by_cases active : s.ownerActive (s.lines.lines.get l).config.binding = true ∨ s.ownerActive b = true
    · rw [if_pos active]
      exact State.runCall_turnedAway admits (ownLineConfig_active hl hm hb may active)
    · rw [if_neg active]
      exact State.runCall_hands
        (f := fun t => if b = (s.lines.lines.get l).config.binding then t
          else (t.unbound (s.lines.lines.get l).config.binding).newlyBound b) admits
        (s.setLine l { s.lines.lines.get l with config := ⟨m, a.pullUp, a.invert, b⟩, latch := latch })
        (ownLineConfig_stores (s := s.setReceiver o.link .hunting) hl hm hb may active hlatch)
  · rw [if_neg may]
    exact State.runCall_turnedAway admits (ownLineConfig_refused hl hm hb may)

theorem lineConfigCall_spec : Claims.LineConfigCall := by
  refine ⟨fun s u o a l m b x latch admits hl hm hb hx hlatch hu => ?_,
    fun s o a admits out => State.runCall_turnedAway admits (ownLineConfig_range out),
    fun d => ?_, fun d => ?_, fun g => ?_, fun z i => stageNamed_eq_none_iff z _ 4 _, fun z i => stageNamed_eq_none_iff z _ 3 _,
    fun c => ?_, rfl⟩
  · have latched : latch = (s.functionOn b).getD x.latch := by
      rw [hlatch]
      cases s.functionOn b <;> rfl
    rw [exec_lineConfig admits hl hm hb hx latched hu]
    exact congrArg _ (if_congr (s.mayBind_iff l m b) rfl rfl)
  all_goals exact Option.map_eq_none_iff.trans row_eq_none_iff

/-! ### What the owners of bindings lose and gain (R131, R150, R151, R153) -/

theorem bne_eq_decide_ne {α : Type} [DecidableEq α] (a b : α) : (a != b) = decide (a ≠ b) := by
  rw [Bool.eq_iff_iff, bne_iff_ne, decide_eq_true_iff]

/-- A configured channel that gains a line is initialised, and its curtain, if it has one, re-evaluates. -/
theorem State.boundChannel_eq (s : State) (d : Fin 32) : s.boundChannel d =
    if (s.channel d).config.configured = true then
      match (s.channel d).config.curtain with
      | none => s.setChannel d (s.channel d).initialise
      | some c => (s.setChannel d (s.channel d).initialise).reevaluate c
    else s := rfl

/-- A group that gains an occupancy line has its last delivery inactive; its dimmer channel already carries its output. -/
theorem State.newlyBound_occupancy (g : Fin 24)
    (carried : s.lines.dimmers.get g = (s.lighting.groups.get g).output) : s.newlyBound (.occupancy g)
      = { s with lighting := { s.lighting with
          groups := s.lighting.groups.set g { s.lighting.groups.get g with lastOccupancy := false } } } := by
  have same : s.lines.dimmers.set g (s.lighting.groups.get g).output = s.lines.dimmers := by
    rw [← carried, Table.set_get]
  simp only [State.newlyBound, State.setGroup, same]

theorem ownersFollowTheirLines_spec : Claims.OwnersFollowTheirLines := by
  refine ⟨fun s d g z c i => ?_, fun s d x hx => ?_, fun s t d x b hx hb ht => ?_, fun s g x hx carried => ?_⟩
  · exact ⟨bne_eq_decide_ne _ _, bne_eq_decide_ne _ _, bne_eq_decide_ne _ _, bne_eq_decide_ne _ _, bne_eq_decide_ne _ _,
      bne_eq_decide_ne _ _, rfl, rfl, rfl, rfl, rfl, rfl, rfl, rfl, rfl, rfl, rfl, rfl, rfl, rfl, rfl, rfl, rfl, rfl, rfl, rfl,
      rfl⟩
  · exact hx ▸ ⟨rfl, rfl⟩
  · have gains : s.newlyBound b = s.boundChannel d := by
      rcases hb with rfl | rfl <;> rfl
    rw [gains, ht, hx]
    exact s.boundChannel_eq d
  · subst hx
    exact State.newlyBound_occupancy g carried

/-! ### LINE_DRIVE and LINE_READ (R148, R149, R154, R155) -/

theorem exec_lineDrive (admits : s.Admits .lineDrive o) {a : LineDriveArgs} (hl : a.line.toNat = l.val) {x : Line}
    (hx : x = s.lines.lines.get l) : exec (.lineDrive o (some a)) s = .next
      (if x.config.binding = .spareOut ∨ x.config.binding = .spareIn then
        State.answered (s.setLine l { x with latch := a.on }) .lineDrive o ⟨.ok, .latch a.on⟩
      else s.answered .lineDrive o ⟨.range, .bare⟩) := by
  subst hx
  split
  · next spare =>
    refine State.runCall_answers admits (s.setLine l { s.lines.lines.get l with latch := a.on }) ?_
    unfold ownLineDrive
    rw [row_of_val hl]
    exact if_pos spare
  · next owned =>
    refine State.runCall_turnedAway admits ?_
    unfold ownLineDrive
    rw [row_of_val hl]
    exact if_neg owned

/-- The level reported as captured: low on an absent board, the last good capture, or the free value before the first. -/
theorem Lines.capturedLevel_eq (x : Lines) (l : Fin 192) {high : Bool}
    (absent : (x.boards.get (boardOf l)).present = false → high = false)
    (scanned : ∀ q, (x.boards.get (boardOf l)).present = true → (x.boards.get (boardOf l)).captured = some q →
      high = q.getLsbD (l.val % 32))
    (unscanned : (x.boards.get (boardOf l)).present = true → (x.boards.get (boardOf l)).captured = none →
      high = Config.unscannedLevel l.val) : x.capturedLevel l = high := by
  unfold Lines.capturedLevel
  split
  · next away => exact (absent away).symm
  · next here never => exact (unscanned here never).symm
  · next q here captured => exact (scanned q here captured).symm

theorem exec_lineRead (admits : s.Admits .lineRead o) {a : IndexArgs} (hl : a.index.toNat = l.val) {x : Line}
    (hx : x = s.lines.lines.get l) {b : Board} (hb : b = s.lines.boards.get (boardOf l)) {high : Bool}
    (level : s.lines.capturedLevel l = high) :
    exec (.lineRead o (some a)) s = .next (s.answered .lineRead o ⟨.ok, .lineRead
      { config := x.config, latch := x.latch, high := high, active := high != x.config.invert, present := b.present
        stranded := !b.present, bad := b.bad, consecutive := b.consecutive }⟩) := by
  subst hx hb level
  refine State.runCall_answers admits s ?_
  unfold ownLineRead
  rw [row_of_val hl]
  rfl

theorem lineDriveAndRead_spec : Claims.LineDriveAndRead := by
  refine ⟨fun s o a l x admits hl hx => exec_lineDrive admits hl hx,
    fun s o a admits out => State.runCall_turnedAway admits ?_,
    fun s o a l x b high admits hl hx hb absent scanned unscanned => exec_lineRead admits hl hx hb ?_,
    fun s o a admits out => State.runCall_turnedAway admits ?_⟩
  · unfold ownLineDrive
    rw [row_outside (n := 192) out]
  · subst hb
    exact s.lines.capturedLevel_eq l absent scanned unscanned
  · unfold ownLineRead
    rw [row_outside (n := 192) out]

/-- Settles O55. -/
theorem lineCalls : Obligations.LineCalls :=
  ⟨lineConfigCall_spec, bindingsNamed_spec, ownersFollowTheirLines_spec, lineDriveAndRead_spec⟩

end Sys2Proof.Machine
end

section
/-! SUPPORT. Every call goes one way (R162): it is not taken, discarded, turned away, or taken by its block and answered; and no
call touches the other link's receiver or hold (R158, R165, R170). -/

namespace Sys2Proof.Machine

variable {s t u : State} {α : Type} {c : Instr} {k : CallKind} {o : Origin} {b : Bool} {l : Link}

/-! ### What becomes of a call -/

/-- What a call can come to: nothing without power (assumption 10), no answer once a RESTART is accepted (R170), one answer
and nothing else where it is turned away, or its block's own event with the answer and what the block hands on. -/
theorem State.runCall_outcome (s : State) (k : CallKind) (o : Origin) (body : Body α) (own : α → State → Taken) :
    s.runCall k o body own = .next s
    ∨ s.runCall k o body own = .next (s.unanswered o)
    ∨ (∃ r, s.runCall k o body own = .next (s.answered k o r))
    ∨ ∃ a, body = some a ∧ s.Admits k o ∧ s.runCall k o body own =
        .next ((own a (s.setReceiver o.link .hunting)).after
          ((own a (s.setReceiver o.link .hunting)).state.answer k o (own a (s.setReceiver o.link .hunting)).reply)) := by
  by_cases running : s.power = .running
  · by_cases isOpen : s.links.restart = none
    · cases may : linkMay k o.link with
      | false => exact .inr (.inr (.inl ⟨_, State.runCall_level running isOpen may body own⟩))
      | true =>
        have admits : s.Admits k o := ⟨running, isOpen, may⟩
        cases body with
        | none => exact .inr (.inr (.inl ⟨_, State.runCall_malformed admits own⟩))
        | some a => exact .inr (.inr (.inr ⟨a, rfl, admits, State.runCall_taken admits a own⟩))
    · exact .inr (.inl (State.runCall_discarded running isOpen body own))
  · exact .inl (State.run_stopped running _)

/-- Every link's receiver and hold stand. -/
def State.SameReceivers (s t : State) : Prop :=
  ∀ l, (t.links.link l).receiver = (s.links.link l).receiver ∧ (t.links.link l).held = (s.links.link l).held

/-- A call's frame touches the link it came by alone: the other link stands, its queue included. -/
theorem State.unanswered_other (other : l ≠ o.link) : (s.unanswered o).links.link l = s.links.link l :=
  LinkInterface.link_setLink_other _ _ other.symm

theorem State.answered_other (other : l ≠ o.link) (r : Reply) : (s.answered k o r).links.link l = s.links.link l :=
  LinkInterface.link_setLink_other _ _ other.symm

theorem State.setReceiver_other (other : l ≠ o.link) (r : Receiver) :
    (s.setReceiver o.link r).links.link l = s.links.link l :=
  LinkInterface.link_setLink_other _ _ other.symm

/-- A call whose block leaves the receivers and the holds alone leaves the other link's as they were. -/
theorem State.runCall_other {own : α → State → Taken} {body : Body α} (other : l ≠ o.link)
    (receivers : ∀ a u, State.SameReceivers u ((own a u).after ((own a u).state.answer k o (own a u).reply)))
    (h : s.runCall k o body own = .next t) :
    (t.links.link l).receiver = (s.links.link l).receiver ∧ (t.links.link l).held = (s.links.link l).held := by
  rcases s.runCall_outcome k o body own with e | e | ⟨r, e⟩ | ⟨a, -, -, e⟩ <;> cases e.symm.trans h
  · exact ⟨rfl, rfl⟩
  · rw [State.unanswered_other other]; exact ⟨rfl, rfl⟩
  · rw [State.answered_other other]; exact ⟨rfl, rfl⟩
  · rw [← s.setReceiver_other other .hunting]; exact receivers a _ l

/-! ### Every call of the table -/

/-- A command is taken as a call of kind `k` from `o` (R162), by a block that leaves the receivers and the holds alone, in the
state in which the KEY level it brought has been seen. -/
def TakenAs (c : Instr) (k : CallKind) (o : Origin) (wellFormed : Bool) : Prop :=
  ∃ (α : Type) (body : Body α) (own : α → State → Taken), body.isSome = wellFormed
    ∧ (∀ a s, State.SameReceivers s ((own a s).after ((own a s).state.answer k o (own a s).reply)))
    ∧ ∀ s, s.power = .running → exec c s = (s.asSeen c).runCall k o body own

theorem Taken.Sound.receivers {x : Taken} (h : x.Sound s) (k : CallKind) (o : Origin) :
    s.SameReceivers (x.after (x.state.answer k o x.reply)) :=
  ((h.event.trans (State.callSound_answer _ k o _)).trans (h.after _)).receivers

theorem takenAs_of_sound {own : α → State → Taken} {body : Body α} (sound : ∀ a s, (own a s).Sound s)
    (e : ∀ s, s.power = .running → exec c s = (s.asSeen c).runCall k o body own) : TakenAs c k o body.isSome :=
  ⟨α, body, own, rfl, fun a s => (sound a s).receivers k o, e⟩

theorem State.seeKey_power (s : State) (key : Bool) : (s.seeKey key).power = s.power := (s.keeps_seeKey key).power

theorem State.seeKey_restart (s : State) (key : Bool) : (s.seeKey key).links.restart = s.links.restart :=
  (s.keeps_seeKey key).links.restart

/-- STORE_SAVE and STORE_STATUS are calls taken once the KEY level is seen (assumption 9). -/
theorem State.run_seeKey (running : s.power = .running) (key : Bool) (body : Body α) (own : α → State → Taken) :
    (s.run fun s => (s.seeKey key).takeCall k o body own) = (s.seeKey key).runCall k o body own :=
  (State.run_running running _).trans (State.run_running ((s.seeKey_power key).trans running)
    fun u => u.takeCall k o body own).symm

/-- CLOCK_SET's own event, its answer and the set event keep what a call keeps, from the clock it loads. -/
theorem ownClockSet_sound (a : ClockSetArgs) (s : State) (k : CallKind) (o : Origin) : ∃ clock, State.CallSound
    { s with clock := clock } ((ownClockSet a s).after ((ownClockSet a s).state.answer k o (ownClockSet a s).reply)) := by
  unfold ownClockSet
  dsimp only
  split
  · exact ⟨s.clock, State.callSound_answer s k o _⟩
  · exact ⟨_, (State.callSound_answer _ k o _).trans (State.keeps_setEvent _ _ _).callSound⟩

theorem ownClockSet_receivers (a : ClockSetArgs) (s : State) (k : CallKind) (o : Origin) :
    s.SameReceivers ((ownClockSet a s).after ((ownClockSet a s).state.answer k o (ownClockSet a s).reply)) := by
  obtain ⟨_, sound⟩ := ownClockSet_sound a s k o
  exact sound.receivers

theorem State.flagsWritten_receivers (s : State) (f : BitVec 10) :
    s.SameReceivers { s with links := { s.links with flags := f } } := fun l => by cases l <;> exact ⟨rfl, rfl⟩

theorem ownFlagsClear_receivers (a : FlagSetArgs) (s : State) (k : CallKind) (o : Origin) :
    s.SameReceivers ((ownFlagsClear a s).after ((ownFlagsClear a s).state.answer k o (ownFlagsClear a s).reply)) := fun l =>
  have written := s.flagsWritten_receivers (s.links.flags &&& ~~~a.flags) l
  have answered := (State.callSound_answer (ownFlagsClear a s).state k o (ownFlagsClear a s).reply).receivers l
  ⟨answered.1.trans written.1, answered.2.trans written.2⟩

/-- Every call of the table is taken in the one way of R162. -/
theorem takenAs_of_callOf (h : callOf c = some (k, o, b)) : TakenAs c k o b := by
  cases c with
  | clockSet o body => cases h; exact ⟨_, body, ownClockSet, rfl, fun a s => ownClockSet_receivers a s _ o, fun _ _ => rfl⟩
  | flagsClear o body =>
    cases h; exact ⟨_, body, ownFlagsClear, rfl, fun a s => ownFlagsClear_receivers a s _ o, fun _ _ => rfl⟩
  | sceneWrite o body =>
    cases h; exact ⟨_, body, ownSceneWrite o.link, rfl, fun a s => (ownSceneWrite_sound _ a s _ o).receivers, fun _ _ => rfl⟩
  | phaseForce o body =>
    cases h; exact ⟨_, body, ownPhaseForce, rfl, fun a s => (ownPhaseForce_sound a s _ o).receivers, fun _ _ => rfl⟩
  | phaseExtend o body =>
    cases h; exact ⟨_, body, ownPhaseExtend, rfl, fun a s => (ownPhaseExtend_sound a s _ o).receivers, fun _ _ => rfl⟩
  | phaseRelease o body =>
    cases h; exact ⟨_, body, ownPhaseRelease, rfl, fun a s => (ownPhaseRelease_sound a s _ o).receivers, fun _ _ => rfl⟩
  | storeSave o body key =>
    cases h; exact takenAs_of_sound ownStoreSave_sound fun s running => State.run_seeKey running key body _
  | storeStatus o body key =>
    cases h; exact takenAs_of_sound ownStoreStatus_sound fun s running => State.run_seeKey running key body _
  | clockRead o body => cases h; exact takenAs_of_sound ownClockRead_sound fun _ _ => rfl
  | calWrite o body => cases h; exact takenAs_of_sound (ownCalWrite_sound o.link) fun _ _ => rfl
  | calRead o body => cases h; exact takenAs_of_sound ownCalRead_sound fun _ _ => rfl
  | calSettings o body => cases h; exact takenAs_of_sound ownCalSettings_sound fun _ _ => rfl
  | phaseRead o body => cases h; exact takenAs_of_sound ownPhaseRead_sound fun _ _ => rfl
  | phaseWrite o body => cases h; exact takenAs_of_sound (ownPhaseWrite_sound o.link) fun _ _ => rfl
  | stagedRead o body => cases h; exact takenAs_of_sound ownStagedRead_sound fun _ _ => rfl
  | stagedDiscard o body => cases h; exact takenAs_of_sound ownStagedDiscard_sound fun _ _ => rfl
  | phaseTableRead o body => cases h; exact takenAs_of_sound ownPhaseTableRead_sound fun _ _ => rfl
  | sceneRead o body => cases h; exact takenAs_of_sound ownSceneRead_sound fun _ _ => rfl
  | doorConfig o body => cases h; exact takenAs_of_sound ownDoorConfig_sound fun _ _ => rfl
  | doorRead o body => cases h; exact takenAs_of_sound ownDoorRead_sound fun _ _ => rfl
  | curtainConfig o body => cases h; exact takenAs_of_sound ownCurtainConfig_sound fun _ _ => rfl
  | arrivalForecast o body => cases h; exact takenAs_of_sound ownArrivalForecast_sound fun _ _ => rfl
  | doorqThresholds o body => cases h; exact takenAs_of_sound ownDoorqThresholds_sound fun _ _ => rfl
  | doorqNotices o body => cases h; exact takenAs_of_sound ownDoorqNotices_sound fun _ _ => rfl
  | doorqRead o body => cases h; exact takenAs_of_sound (ownDoorqRead_sound o.link) fun _ _ => rfl
  | doorqFlush o body => cases h; exact takenAs_of_sound ownDoorqFlush_sound fun _ _ => rfl
  | nodeConfig o body => cases h; exact takenAs_of_sound ownNodeConfig_sound fun _ _ => rfl
  | nodeRead o body => cases h; exact takenAs_of_sound ownNodeRead_sound fun _ _ => rfl
  | sourceMapWrite o body => cases h; exact takenAs_of_sound ownSourceMapWrite_sound fun _ _ => rfl
  | sensorLimits o body => cases h; exact takenAs_of_sound ownSensorLimits_sound fun _ _ => rfl
  | zoneConfig o body => cases h; exact takenAs_of_sound ownZoneConfig_sound fun _ _ => rfl
  | zoneMode o body => cases h; exact takenAs_of_sound ownZoneMode_sound fun _ _ => rfl
  | zoneManual o body => cases h; exact takenAs_of_sound ownZoneManual_sound fun _ _ => rfl
  | cyclePeriod o body => cases h; exact takenAs_of_sound ownCyclePeriod_sound fun _ _ => rfl
  | climateSettings o body => cases h; exact takenAs_of_sound ownClimateSettings_sound fun _ _ => rfl
  | zoneRead o body => cases h; exact takenAs_of_sound ownZoneRead_sound fun _ _ => rfl
  | capSet o body => cases h; exact takenAs_of_sound ownCapSet_sound fun _ _ => rfl
  | capClear o body => cases h; exact takenAs_of_sound ownCapClear_sound fun _ _ => rfl
  | ratingsWrite o body => cases h; exact takenAs_of_sound ownRatingsWrite_sound fun _ _ => rfl
  | stageTimes o body => cases h; exact takenAs_of_sound ownStageTimes_sound fun _ _ => rfl
  | budgetRead o body => cases h; exact takenAs_of_sound ownBudgetRead_sound fun _ _ => rfl
  | groupConfig o body => cases h; exact takenAs_of_sound ownGroupConfig_sound fun _ _ => rfl
  | lightSettings o body => cases h; exact takenAs_of_sound ownLightSettings_sound fun _ _ => rfl
  | groupOverride o body => cases h; exact takenAs_of_sound ownGroupOverride_sound fun _ _ => rfl
  | groupRelease o body => cases h; exact takenAs_of_sound ownGroupRelease_sound fun _ _ => rfl
  | groupRead o body => cases h; exact takenAs_of_sound ownGroupRead_sound fun _ _ => rfl
  | lineConfig o body => cases h; exact takenAs_of_sound ownLineConfig_sound fun _ _ => rfl
  | lineDrive o body => cases h; exact takenAs_of_sound ownLineDrive_sound fun _ _ => rfl
  | lineRead o body => cases h; exact takenAs_of_sound ownLineRead_sound fun _ _ => rfl
  | ident o body => cases h; exact takenAs_of_sound ownIdent_sound fun _ _ => rfl
  | flagsRead o body => cases h; exact takenAs_of_sound ownFlagsRead_sound fun _ _ => rfl
  | flagsEnable o body => cases h; exact takenAs_of_sound ownFlagsEnable_sound fun _ _ => rfl
  | restart o body => cases h; exact takenAs_of_sound (ownRestart_sound o.link) fun _ _ => rfl
  | shiftRead o body => cases h; exact takenAs_of_sound ownShiftRead_sound fun _ _ => rfl
  | _ => exact nomatch h

/-- The KEY level a command brings leaves the receivers, the power and an accepted RESTART as they were. -/
theorem State.keeps_asSeen (s : State) (c : Instr) : s.Keeps (s.asSeen c) := by
  cases c with
  | storeSave _ _ key => exact s.keeps_seeKey key
  | storeStatus _ _ key => exact s.keeps_seeKey key
  | _ => exact .refl s

theorem State.asSeen_running (running : s.power = .running) (c : Instr) : (s.asSeen c).power = .running :=
  (s.keeps_asSeen c).power.trans running

theorem State.asSeen_restart (s : State) (c : Instr) : (s.asSeen c).links.restart = s.links.restart :=
  (s.keeps_asSeen c).links.restart

/-! ### Nothing taken (O8) -/

/-- Without supply or in reset every command but the three of power changes nothing (assumption 10). -/
theorem exec_stopped (stopped : s.power ≠ .running) (on : ∀ boards, c ≠ .powerOn boards) (off : c ≠ .lossOfPower)
    (low : c ≠ .resetPinLow) : exec c s = .next s := by
  cases c with
  | powerOn boards => exact absurd rfl (on boards)
  | lossOfPower => exact absurd rfl off
  | resetPinLow => exact absurd rfl low
  | _ => exact State.run_stopped stopped _

theorem State.takeUnknown_discarded (restarting : s.links.restart ≠ none) (o : Origin) (kind : Byte) :
    s.takeUnknown o kind = s.unanswered o := by
  refine if_neg fun isOpen => restarting ?_
  simpa [State.setReceiver] using isOpen.1

theorem callsAfterRestartAreDiscarded_spec : Claims.CallsAfterRestartAreDiscarded := by
  refine ⟨fun c s k o b call running restarting => ?_, fun s o kind running restarting => ?_⟩
  · obtain ⟨_, body, own, -, -, taken⟩ := takenAs_of_callOf call
    rw [taken s running]
    exact State.runCall_discarded (State.asSeen_running running c) (by rwa [State.asSeen_restart]) body own
  · exact (State.run_running running _).trans (congrArg _ (State.takeUnknown_discarded restarting o kind))

/-- Settles O8. -/
theorem nothingTaken : Obligations.NothingTaken :=
  ⟨callsAfterRestartAreDiscarded_spec, fun _ _ stopped on off low => exec_stopped stopped on off low⟩

/-! ### Calls judged (O10) -/

/-- The panel may make the eleven calls of its set and no other (R165). -/
theorem linkMay_panel (outside : k ∉ [.phaseExtend, .groupOverride, .groupRelease, .phaseWrite, .sceneWrite, .phaseRead,
    .zoneRead, .groupRead, .doorRead, .shiftRead, .ident]) : linkMay k .panel = false := by
  cases k <;> simp [linkMay, panelMay] at outside ⊢

theorem panelCallsOutsideItsSetAnswerLevel_spec : Claims.PanelCallsOutsideItsSetAnswerLevel := by
  refine ⟨fun c s k o b call panel outside running isOpen => ?_, fun _ => rfl⟩
  obtain ⟨_, body, own, -, -, taken⟩ := takenAs_of_callOf call
  rw [taken s running]
  exact State.runCall_level (State.asSeen_running running c) ((s.asSeen_restart c).trans isOpen)
    (by rw [panel]; exact linkMay_panel outside) body own

theorem malformedBodiesAnswerRange_spec : Claims.MalformedBodiesAnswerRange := by
  intro c s k o call admits
  obtain ⟨_, body, own, malformed, -, taken⟩ := takenAs_of_callOf call
  obtain rfl : body = none := by simpa using malformed
  rw [taken s admits.running]
  exact State.runCall_malformed
    ⟨State.asSeen_running admits.running c, (s.asSeen_restart c).trans admits.open_, admits.may⟩ own

/-- A kind byte that is no call's code names no call (R162, step 1). -/
theorem kindOf_eq_none {kind : Byte} (unknown : ∀ k, kindCode k ≠ kind) : kindOf kind = none :=
  List.find?_eq_none.mpr fun k _ => by simpa using unknown k

theorem unknownCallsAnswerUnknown_spec : Claims.UnknownCallsAnswerUnknown := by
  intro s o kind running isOpen low high unknown
  refine (State.run_running running _).trans (congrArg _ ?_)
  have noRestart : (s.setReceiver o.link .hunting).links.restart.isNone = true := by simp [State.setReceiver, isOpen]
  have code : isCallCode kind = true := by simp [isCallCode, low, high]
  exact (if_pos ⟨noRestart, code, by rw [kindOf_eq_none unknown]; rfl⟩).trans (s.answerCode_eq kind o _)

/-- Settles O10. -/
theorem callsJudged : Obligations.CallsJudged :=
  ⟨panelCallsOutsideItsSetAnswerLevel_spec, malformedBodiesAnswerRange_spec, unknownCallsAnswerUnknown_spec⟩

end Sys2Proof.Machine
end

section
/-! SUPPORT. The rows of a link's own traffic: hold, release and start bytes, discarded and sent frames; each replaces the
record of its own link alone (R158, R160, R161, R163). -/

namespace Sys2Proof.Machine

variable {s t : State} {c : Instr} {l m : Link} {f : LinkState → LinkState}

/-- A link's record replaced by itself changes nothing. -/
theorem State.setLink_link (s : State) (l : Link) : s.setLink l (s.links.link l) = s := by cases l <;> rfl

/-! ### Bytes, discards and frames sent (O11) -/

theorem State.whenHunting_hunting (hunting : (s.links.link l).receiver = .hunting) :
    s.whenHunting l f = s.setLink l (f (s.links.link l)) := if_pos hunting

/-- Inside a frame a hold, release or start byte is a byte of the frame (R160). -/
theorem State.whenHunting_receiving (receiving : (s.links.link l).receiver = .receiving) : s.whenHunting l f = s :=
  if_neg fun hunting => Receiver.noConfusion (receiving.symm.trans hunting)

theorem holdReleaseAndStartBytes_spec : Claims.HoldReleaseAndStartBytes := by
  refine fun s l running => ⟨fun hunting => ?_, fun receiving => ?_⟩
  · have taken (f : LinkState → LinkState) : (s.run fun s => s.whenHunting l f) = .next (s.setLink l (f (s.links.link l))) :=
      (State.run_running running _).trans (congrArg _ (State.whenHunting_hunting hunting))
    exact ⟨taken _, taken _, taken _⟩
  · have ignored (f : LinkState → LinkState) : (s.run fun s => s.whenHunting l f) = .next s :=
      (State.run_running running _).trans (congrArg _ (State.whenHunting_receiving receiving))
    exact ⟨ignored _, ignored _, ignored _⟩

/-- A late byte 0x7E begins the next frame: the receiver is RECEIVING again (R160). -/
theorem LinkState.discard_start {x : LinkState} (receiving : x.receiver = .receiving) : x.discard (.lateByte 0x7E) = x := by
  obtain ⟨_, _, _, _⟩ := x
  cases receiving
  rfl

theorem exec_frameDiscarded (running : s.power = .running) (receiving : (s.links.link l).receiver = .receiving)
    (cause : DiscardCause) :
    exec (.frameDiscarded l cause) s = .next (s.setLink l ((s.links.link l).discard cause)) :=
  (State.run_running running _).trans (congrArg _ (if_pos receiving))

theorem LinkState.sent_sending {x : LinkState} {first : Frame} {rest : List Frame} (sending : x.sending = true)
    (queue : x.queue = first :: rest) : x.sent = { x with queue := rest, sending := !x.held && !rest.isEmpty } := by
  unfold LinkState.sent
  rw [if_pos sending, queue]
  rfl

theorem LinkState.sent_idle {x : LinkState} (idle : x.sending = false) : x.sent = x :=
  if_neg (Bool.eq_false_iff.mp idle)

theorem exec_frameSent (running : s.power = .running) (l : Link) :
    exec (.frameSent l) s = .next (s.setLink l (s.links.link l).sent) := State.run_running running _

theorem framesDiscardedAndSent_spec : Claims.FramesDiscardedAndSent := by
  refine ⟨fun s l cause running receiving => ?_, fun s l first rest running sending queue => ?_,
    fun s l running idle => ?_⟩
  · rw [exec_frameDiscarded running receiving]
    cases cause with
    | lateByte byte =>
      by_cases start : byte = 0x7E
      · subst start
        rw [LinkState.discard_start receiving]
        rfl
      · dsimp only
        rw [if_neg start]
        exact congrArg (fun x => Host.Outcome.next (s.setLink l x)) (if_neg start)
    | badLength | badStopBit | badCheck | notACall => rfl
  · rw [exec_frameSent running, LinkState.sent_sending sending queue]
  · rw [exec_frameSent running, LinkState.sent_idle idle, State.setLink_link]

/-- Settles O11. -/
theorem linkTraffic : Obligations.LinkTraffic := ⟨holdReleaseAndStartBytes_spec, framesDiscardedAndSent_spec⟩

/-! ### One link and the other (O9) -/

/-- The next state is the state with one link's record replaced, the others and all else as they were. -/
def State.OnLink (s : State) (m : Link) (t : State) : Prop := ∃ x, t = s.setLink m x

theorem State.OnLink.refl (s : State) (m : Link) : s.OnLink m s := ⟨_, (s.setLink_link m).symm⟩

theorem State.OnLink.other (h : s.OnLink m t) (other : l ≠ m) : t.links.link l = s.links.link l := by
  obtain ⟨x, rfl⟩ := h
  exact LinkInterface.link_setLink_other _ x other.symm

theorem State.onLink_run {g : State → State} (h : s.OnLink m (g s)) (e : s.run g = .next t) : s.OnLink m t := by
  cases e
  unfold State.whenRunning
  split
  · exact h
  · exact .refl s m

theorem State.onLink_whenHunting (s : State) (m : Link) (f : LinkState → LinkState) : s.OnLink m (s.whenHunting m f) := by
  unfold State.whenHunting
  split
  · exact ⟨_, rfl⟩
  · exact .refl s m

/-- Each of the five rows of a link's own traffic replaces that link's record alone (R158). -/
theorem exec_onLink (own : c = .linkHold m ∨ c = .linkRelease m ∨ c = .frameBegins m ∨ (∃ x, c = .frameDiscarded m x)
    ∨ c = .frameSent m) (e : exec c s = .next t) : s.OnLink m t := by
  rcases own with rfl | rfl | rfl | ⟨x, rfl⟩ | rfl
  · exact State.onLink_run (s.onLink_whenHunting m LinkState.hold) e
  · exact State.onLink_run (s.onLink_whenHunting m LinkState.release) e
  · exact State.onLink_run (s.onLink_whenHunting m fun x => { x with receiver := .receiving }) e
  · refine State.onLink_run ?_ e
    split
    · exact ⟨_, rfl⟩
    · exact .refl s m
  · exact State.onLink_run ⟨_, rfl⟩ e

/-- Settles O9: a call's block touches no receiver and no hold, and a link's own traffic replaces its own record. -/
theorem linksDoNotTouchEachOther : Obligations.LinksDoNotTouchEachOther := by
  refine ⟨fun c s t k o b l call other e => ?_, fun c s t l m other own e => (exec_onLink own e).other other⟩
  obtain ⟨_, body, own, -, receivers, taken⟩ := takenAs_of_callOf call
  by_cases running : s.power = .running
  · rw [taken s running] at e
    have seen := (s.keeps_asSeen c).links
    obtain ⟨receiver, held⟩ := State.runCall_other other receivers e
    exact ⟨receiver.trans (seen.receiver l), held.trans (seen.held l)⟩
  · cases (exec_stopped running (by rintro _ rfl; cases call) (by rintro rfl; cases call)
      (by rintro rfl; cases call)).symm.trans e
    exact ⟨rfl, rfl⟩

end Sys2Proof.Machine
end

section
/-! SUPPORT. The attention flags: what a set event says and to whom, the calls that read and write them, IDENT, and what alone
clears a flag (R163, R166, R167, R169, R170). -/

namespace Sys2Proof.Machine

variable {s t : State} {α : Type} {c : Instr} {k : CallKind} {o : Origin} {i : LinkInterface} {f : Flag}

/-! ### The calls of the flags, and IDENT (R167, R169) -/

theorem exec_flagsRead (admits : s.Admits .flagsRead o) :
    exec (.flagsRead o (some ())) s = .next (s.answered .flagsRead o ⟨.ok, .flags s.links.flags s.links.enables⟩) :=
  State.runCall_answers admits s (by obtain ⟨l, _⟩ := o; cases l <;> rfl)

/-- The flags left by FLAGS_CLEAR are those set and not named (R167). -/
theorem flags_cleared {flags named rest : BitVec 10}
    (h : ∀ i, rest.getLsbD i = (flags.getLsbD i && !named.getLsbD i)) : flags &&& ~~~named = rest := by
  refine BitVec.eq_of_getLsbD_eq fun i hi => ?_
  rw [h, BitVec.getLsbD_and, BitVec.getLsbD_not, decide_eq_true hi, Bool.true_and]

theorem exec_flagsClear (admits : s.Admits .flagsClear o) (a : FlagSetArgs) :
    exec (.flagsClear o (some a)) s = .next
      (State.answered { s with links := { s.links with flags := s.links.flags &&& ~~~a.flags } } .flagsClear o
        ⟨.ok, .flags (s.links.flags &&& ~~~a.flags) s.links.enables⟩) :=
  State.runCall_answers admits _ (by obtain ⟨l, _⟩ := o; cases l <;> rfl)

theorem exec_flagsEnable (admits : s.Admits .flagsEnable o) (a : FlagSetArgs) :
    exec (.flagsEnable o (some a)) s = .next
      (State.answered { s with links := { s.links with enables := a.flags } } .flagsEnable o
        ⟨.ok, .flags s.links.flags a.flags⟩) :=
  State.runCall_answers admits _ (by obtain ⟨l, _⟩ := o; cases l <;> rfl)

theorem exec_ident (admits : s.Admits .ident o) : exec (.ident o (some ())) s
    = .next (s.answered .ident o ⟨.ok, .ident 0x2A61 240 'B' (s.lines.boards.map fun b => b.present) s.store.report⟩) :=
  State.runCall_answers admits s rfl

/-! ### A set event (R166) -/

/-- A clear flag is set; the links stand where its enable is off or a RESTART is accepted (assumption 39). -/
theorem LinkInterface.raise_silent (clear : i.isSet f = false) (silent : i.isEnabled f = false ∨ i.restart ≠ none) :
    i.raise f = { i with flags := i.flags ||| flagBit f } := by
  unfold LinkInterface.raise
  rw [if_neg (Bool.eq_false_iff.mp clear)]
  dsimp only
  split
  · next enabled =>
    have restarting : i.restart ≠ none := silent.resolve_left (Bool.ne_false_iff.mpr enabled)
    exact if_pos (Option.isSome_iff_ne_none.mpr restarting)
  · rfl

/-- A clear flag whose enable is on is set and reported to the supervisor with the flags now set (R166). -/
theorem LinkInterface.raise_told (clear : i.isSet f = false) (enabled : i.isEnabled f = true) (isOpen : i.restart = none) :
    i.raise f = { i with
      flags := i.flags ||| flagBit f
      supervisor := i.supervisor.offer (noticeFrame (.attention f (i.flags ||| flagBit f) i.enables)) } := by
  unfold LinkInterface.raise
  rw [if_neg (Bool.eq_false_iff.mp clear)]
  refine (if_pos enabled).trans (if_neg ?_)
  rw [show ({ i with flags := i.flags ||| flagBit f } : LinkInterface).restart = none from isOpen]
  exact Bool.false_ne_true

theorem LinkState.offer_full {x : LinkState} (full : 8 ≤ x.queue.length) (y : Frame) : x.offer y = x :=
  if_neg (Nat.not_lt.mpr full)

theorem LinkState.offer_room {x : LinkState} (room : x.queue.length < 8) (y : Frame) :
    (x.offer y).queue = x.queue ++ [y] := (x.offer_queue y).trans (if_pos room)

/-- Settles O56. -/
theorem flagCallsAndIdent : Obligations.FlagCallsAndIdent := by
  refine ⟨fun s o admits => exec_flagsRead admits, fun s o a rest admits cleared => ?_,
    fun s o a admits => exec_flagsEnable admits a, fun s o admits => ?_,
    fun i f => ⟨LinkInterface.raise_set, fun clear =>
      ⟨?_, fun e other => ?_, fun silent => ?_, fun enabled isOpen => ?_⟩⟩⟩
  · rw [exec_flagsClear admits, flags_cleared cleared]
  · refine (exec_ident admits).trans ?_
    unfold Store.report
    rcases s.store.saving with - | - | - <;> rfl
  · simp [LinkInterface.isSet_raise]
  · simp [LinkInterface.isSet_raise, other.symm]
  · rw [LinkInterface.raise_silent clear silent]
    exact ⟨rfl, rfl⟩
  · rw [LinkInterface.raise_told clear enabled isOpen]
    exact ⟨rfl, fun room => LinkState.offer_room room _, fun full => LinkState.offer_full full _⟩

/-! ### What clears a flag (O7) -/

theorem State.tick_keepsFlags (s : State) (capture : Capture) (order : List TickEvent) :
    s.links.keepsFlags (s.tick capture order).links := by
  obtain ⟨u, v, due, rfl, events⟩ := s.tick_spec capture order
  exact fun f set => events.links.flags f (due.links.flags f set)

/-- A call leaves a flag set that its block, where the call reaches it, leaves set. -/
theorem State.runCall_keepsFlag {own : α → State → Taken} {body : Body α}
    (kept : ∀ a (u : State), body = some a → linkMay k o.link = true → u.links.isSet f = true →
      ((own a u).after ((own a u).state.answer k o (own a u).reply)).links.isSet f = true)
    (e : s.runCall k o body own = .next t) (set : s.links.isSet f = true) : t.links.isSet f = true := by
  have framed (x : LinkState) : (s.links.setLink o.link x).isSet f = true := by simpa [LinkInterface.isSet] using set
  rcases s.runCall_outcome k o body own with h | h | ⟨r, h⟩ | ⟨a, isBody, admits, h⟩ <;> cases h.symm.trans e
  · exact set
  · exact framed _
  · exact framed _
  · exact kept a _ isBody admits.may (framed _)

theorem exec_clockSet_keepsFlags {body : Body ClockSetArgs} (e : exec (.clockSet o body) s = .next t) :
    s.links.keepsFlags t.links := fun _ =>
  State.runCall_keepsFlag (fun a u _ _ set => (ownClockSet_sound a u _ o).elim fun _ sound => sound.flags _ set) e

/-- FLAGS_CLEAR is no call of the panel's set (R165). -/
theorem supervisor_of_mayClear {l : Link} (may : linkMay .flagsClear l = true) : l = .supervisor := by
  cases l with
  | supervisor => rfl
  | panel => cases may

theorem ownFlagsClear_keepsFlag {a : FlagSetArgs} (unnamed : a.flags.getLsbD (flagIndex f) = false)
    (set : s.links.isSet f = true) (o : Origin) :
    ((ownFlagsClear a s).state.answer .flagsClear o (ownFlagsClear a s).reply).links.isSet f = true := by
  refine (State.callSound_answer (ownFlagsClear a s).state _ o _).flags f ?_
  have stood : s.links.flags.getLsbD (flagIndex f) = true := set
  show (s.links.flags &&& ~~~a.flags).getLsbD (flagIndex f) = true
  simp only [BitVec.getLsbD_and, BitVec.getLsbD_not, stood, unnamed, flagIndex_lt f, decide_true, Bool.not_false,
    Bool.and_self]

/-- FLAGS_CLEAR leaves a flag clear only where the supervisor's good body names it (R165, R167). -/
theorem exec_flagsClear_names {body : Body FlagSetArgs} (e : exec (.flagsClear o body) s = .next t)
    (set : s.links.isSet f = true) (clear : t.links.isSet f = false) :
    ∃ a, body = some a ∧ o.link = .supervisor ∧ a.flags.getLsbD (flagIndex f) = true := by
  by_contra untold
  refine Bool.false_ne_true (clear.symm.trans (State.runCall_keepsFlag (fun a u isBody may set => ?_) e set))
  refine ownFlagsClear_keepsFlag (Bool.eq_false_iff.mpr fun named => untold ?_) set o
  exact ⟨a, isBody, supervisor_of_mayClear may, named⟩

/-- No command but a start-up and FLAGS_CLEAR clears a flag (R166). -/
theorem exec_keepsFlags (on : ∀ boards, c ≠ .powerOn boards) (reset : ∀ boards, c ≠ .resetTakesEffect boards)
    (clear : ∀ o body, c ≠ .flagsClear o body) (e : exec c s = .next t) : s.links.keepsFlags t.links := by
  by_cases ordinary : Instr.ordinary c = true
  · obtain ⟨u, h, keeps⟩ := exec_keepsCall c s ordinary
    cases h.symm.trans e
    exact keeps.flags
  · cases c with
    | powerOn boards => exact absurd rfl (on boards)
    | resetTakesEffect boards => exact absurd rfl (reset boards)
    | flagsClear o body => exact absurd rfl (clear o body)
    | tick capture order =>
      cases e
      exact State.whenRunning_invariant (P := fun u => s.links.keepsFlags u.links) (s.tick_keepsFlags capture order) fun _ => id
    | clockSet o body => exact exec_clockSet_keepsFlags e
    | _ => exact absurd rfl ordinary

/-- Settles O7: of the three commands left only FLAGS_CLEAR is a call, and it clears what it names. -/
theorem flagsClearOnlyByCallOrReset : Obligations.FlagsClearOnlyByCallOrReset := by
  intro s t f h set clear
  unfold step at h
  split at h
  · cases h
    exact absurd (clear.symm.trans set) Bool.false_ne_true
  · next c rest waiting =>
    refine ⟨c, rest, waiting, ?_⟩
    by_cases call : ∃ o body, c = .flagsClear o body
    · obtain ⟨o, body, rfl⟩ := call
      obtain ⟨a, rfl, link, named⟩ := exec_flagsClear_names h set clear
      exact .inr (.inr ⟨o, a, rfl, link, named⟩)
    · by_contra other
      have kept := exec_keepsFlags (fun boards eq => other (.inl ⟨boards, eq⟩))
        (fun boards eq => other (.inr (.inl ⟨boards, eq⟩))) (fun o body eq => call ⟨o, body, eq⟩) h f set
      exact Bool.false_ne_true (clear.symm.trans kept)

end Sys2Proof.Machine
end

section
/-! SUPPORT. The Settings Store at work: what a save leaves alone, the KEY level seen, STORE_SAVE and STORE_STATUS, and the end of
each area's write (R171, R173 to R175). -/

namespace Sys2Proof.Machine

variable {s t u : State} {c : Instr} {k : CallKind} {o : Origin} {key : Bool} {x : Commissioning} {y : Operating}
  {next : Option Operating} {done : AreaResult}

/-! ### What a save leaves alone (R171, R174) -/

/-- Nothing has changed but the Settings Store and the links, and of the links neither the enables nor a set flag. -/
def State.StoreOnly (s t : State) : Prop :=
  ∃ store links, links.enables = s.links.enables ∧ s.links.keepsFlags links
    ∧ t = { s with store := store, links := links }

theorem State.StoreOnly.trans (h : s.StoreOnly t) (k : t.StoreOnly u) : s.StoreOnly u := by
  obtain ⟨_, _, enables, flags, rfl⟩ := h
  obtain ⟨_, _, enables', flags', rfl⟩ := k
  exact ⟨_, _, enables'.trans enables, fun f set => flags' f (flags f set), rfl⟩

/-- The enables are part of the operating tables, so they must stand for the tables to stand (R171). -/
theorem State.StoreOnly.tables (h : s.StoreOnly t) : t.commissioning = s.commissioning ∧ t.operating = s.operating := by
  obtain ⟨_, _, enables, -, rfl⟩ := h
  exact ⟨rfl, congrArg (fun e => { s.operating with enables := e }) enables⟩

theorem State.StoreOnly.keepsFlags (h : s.StoreOnly t) : s.links.keepsFlags t.links := by
  obtain ⟨_, _, -, flags, rfl⟩ := h
  exact flags

theorem State.storeOnly_setStore (s : State) (z : Store) : s.StoreOnly (s.setStore z) :=
  ⟨z, s.links, rfl, fun _ => id, rfl⟩

theorem State.storeOnly_grows {i : LinkInterface} (h : s.links.Grows i) : s.StoreOnly { s with links := i } :=
  ⟨s.store, i, h.enables, h.flags, rfl⟩

theorem State.storeOnly_setReceiver (s : State) (l : Link) (r : Receiver) : s.StoreOnly (s.setReceiver l r) :=
  ⟨s.store, _, LinkInterface.setLink_enables .., fun f set => by simpa [LinkInterface.isSet] using set, rfl⟩

theorem State.storeOnly_finishSave (s : State) (r : SaveResult) : s.StoreOnly (s.finishSave r) :=
  (s.storeOnly_setStore _).trans (State.storeOnly_grows (LinkInterface.grows_notify _ _ _))

theorem State.storeOnly_afterCommissioning (s : State) (outcome : AreaResult) (next : Option Operating) :
    s.StoreOnly (s.afterCommissioning outcome next) := by
  cases next with
  | some _ => exact s.storeOnly_setStore _
  | none => exact s.storeOnly_finishSave _

theorem State.storeOnly_spoilCommissioning (s : State) : s.StoreOnly s.spoilCommissioning :=
  (s.storeOnly_setStore _).trans (State.storeOnly_grows (LinkInterface.grows_raise _ _))

theorem State.storeOnly_spoilOperating (s : State) : s.StoreOnly s.spoilOperating :=
  (s.storeOnly_setStore _).trans (State.storeOnly_grows (LinkInterface.grows_raise _ _))

/-! ### STORE_DAMAGED and STORE_RESULT (R163, R166, R174) -/

theorem LinkInterface.isSet_notify (i : LinkInterface) (l : Link) (n : Notice) (f : Flag) :
    (i.notify l n).isSet f = i.isSet f := by
  unfold LinkInterface.notify LinkInterface.offer
  split
  · rfl
  · simp [LinkInterface.isSet]

theorem LinkInterface.isSet_raised (i : LinkInterface) (f : Flag) : (i.raise f).isSet f = true := by
  simp [LinkInterface.isSet_raise]

theorem storeResultOffered_spec (s t : State) (r : SaveResult) (told : t = s.notify .supervisor (.storeResult r)) :
    t = { s with links := t.links } ∧ t.links.panel = s.links.panel
    ∧ (∀ f, t.links.isSet f = s.links.isSet f)
    ∧ t.links.supervisor.queue = (if s.links.restart = none ∧ s.links.supervisor.queue.length < 8
      then s.links.supervisor.queue ++ [⟨0xF4, 0, .notice (.storeResult r)⟩] else s.links.supervisor.queue) := by
  subst told
  refine ⟨rfl, (LinkInterface.speaks_notify _ _).panel, LinkInterface.isSet_notify _ _ _, ?_⟩
  have offered := s.links.notify_queue .supervisor .supervisor (.storeResult r)
  simp only [true_and] at offered
  exact offered

/-! ### KEY seen (R173, R174) -/

/-- A low KEY abandons the commissioning write. -/
theorem State.seeKey_abandons (writing : s.store.saving = some (.commissioning x next)) : s.seeKey false
    = (s.setStore { s.store with key := false }).spoilCommissioning.afterCommissioning (.damaged .key) next := by
  unfold State.seeKey
  rw [writing]

/-- A low KEY abandons no other write. -/
theorem State.seeKey_recorded (other : ∀ x next, s.store.saving ≠ some (.commissioning x next)) :
    s.seeKey false = s.setStore { s.store with key := false } := by
  unfold State.seeKey
  split
  · next writing => exact absurd writing (other _ _)
  · rfl

theorem State.seeKey_high (s : State) : s.seeKey true = s.setStore { s.store with key := true } := rfl

theorem State.seeKey_low (s : State) : s.seeKey false = s.setStore { s.store with key := false }
    ∨ ∃ next, s.seeKey false
      = (s.setStore { s.store with key := false }).spoilCommissioning.afterCommissioning (.damaged .key) next := by
  by_cases writing : ∃ x next, s.store.saving = some (.commissioning x next)
  · obtain ⟨x, next, writing⟩ := writing
    exact .inr ⟨next, State.seeKey_abandons writing⟩
  · exact .inl (State.seeKey_recorded fun x next e => writing ⟨x, next, e⟩)

theorem State.storeOnly_seeKey (s : State) (key : Bool) : s.StoreOnly (s.seeKey key) := by
  cases key with
  | true => exact s.storeOnly_setStore _
  | false =>
    obtain e | ⟨next, e⟩ := s.seeKey_low <;> rw [e]
    · exact s.storeOnly_setStore _
    · exact ((s.storeOnly_setStore _).trans (State.storeOnly_spoilCommissioning _)).trans
        (State.storeOnly_afterCommissioning _ _ _)

theorem State.seeKey_key (s : State) (key : Bool) : (s.seeKey key).store.key = key := by
  cases key with
  | true => rfl
  | false => obtain e | ⟨_ | _, e⟩ := s.seeKey_low <;> rw [e] <;> rfl

theorem exec_keyFall (running : s.power = .running) : exec .keyFall s = .next (s.seeKey false) := State.run_running running _

theorem keySeen_spec : Claims.KeySeen :=
  ⟨State.seeKey_high, fun _ running => exec_keyFall running, fun _ c => by cases c <;> rfl⟩

/-! ### STORE_SAVE and STORE_STATUS (R173, R175) -/

theorem State.Admits.seeKey (admits : s.Admits k o) (key : Bool) : (s.seeKey key).Admits k o :=
  ⟨(s.seeKey_power key).trans admits.running, (s.seeKey_restart key).trans admits.open_, admits.may⟩

/-- The save a STORE_SAVE begins: the snapshots of what it asks for, the commissioning area first (R173). -/
def State.saveOf (s : State) (a : StoreSaveArgs) : Saving :=
  if a.commissioning then .commissioning s.commissioning (if a.operating then some s.operating else none)
  else .operating s.operating .notRequested

theorem State.StoreOnly.saveOf (h : s.StoreOnly t) (a : StoreSaveArgs) : t.saveOf a = s.saveOf a := by
  obtain ⟨commissioning, operating⟩ := h.tables
  unfold State.saveOf
  rw [commissioning, operating]

/-- With the commissioning area not asked for, the operating area is. -/
theorem State.saveOf_begun (s : State) (a : StoreSaveArgs) (asked : ¬ (a.commissioning = false ∧ a.operating = false)) :
    (if a.commissioning then some (.commissioning s.commissioning (if a.operating then some s.operating else none))
      else (if a.operating then some s.operating else none).map fun y => .operating y .notRequested) = some (s.saveOf a) := by
  unfold State.saveOf
  cases commissioning : a.commissioning with
  | true => rfl
  | false =>
    have operating : a.operating = true := Bool.eq_true_of_not_eq_false fun off => asked ⟨commissioning, off⟩
    rw [operating]
    rfl

/-- STORE_SAVE in its block: its refusals in order, or the save begun. -/
theorem ownStoreSave_eq (a : StoreSaveArgs) (s : State) : ownStoreSave a s =
    if a.commissioning = false ∧ a.operating = false then .turnedAway s .range
    else if s.store.saving ≠ none then .turnedAway s .busy
    else if a.commissioning = true ∧ s.store.key = false then .turnedAway s .locked
    else { state := s.setStore { s.store with saving := some (s.saveOf a) }, reply := replyOnly .ok } := by
  unfold ownStoreSave
  by_cases nothing : a.commissioning = false ∧ a.operating = false
  · rw [if_pos nothing, if_pos nothing]
  · rw [if_neg nothing, if_neg nothing, ← s.saveOf_begun a nothing]
    simp only [Option.isSome_iff_ne_none]

theorem exec_storeSave (admits : s.Admits .storeSave o) (a : StoreSaveArgs) (key : Bool) (seen : u = s.seeKey key) :
    exec (.storeSave o (some a) key) s = .next
      (if a.commissioning = false ∧ a.operating = false then u.answered .storeSave o ⟨.range, .bare⟩
      else if u.store.saving ≠ none then u.answered .storeSave o ⟨.busy, .bare⟩
      else if a.commissioning = true ∧ key = false then u.answered .storeSave o ⟨.locked, .bare⟩
      else State.answered { u with store := { u.store with saving := some (s.saveOf a) } } .storeSave o ⟨.ok, .bare⟩) := by
  have call : exec (.storeSave o (some a) key) s = u.runCall .storeSave o (some a) ownStoreSave :=
    seen ▸ State.run_seeKey admits.running key _ _
  have taken : u.Admits .storeSave o := seen ▸ admits.seeKey key
  have snapshots : (u.setReceiver o.link .hunting).saveOf a = s.saveOf a :=
    ((seen ▸ s.storeOnly_seeKey key : s.StoreOnly u).trans (u.storeOnly_setReceiver _ _)).saveOf a
  obtain rfl : u.store.key = key := seen ▸ s.seeKey_key key
  have own := ownStoreSave_eq a (u.setReceiver o.link .hunting)
  simp only [setReceiver_store, snapshots] at own
  rw [call]
  split_ifs at own ⊢ with _ _ _
  · exact State.runCall_turnedAway taken own
  · exact State.runCall_turnedAway taken own
  · exact State.runCall_turnedAway taken own
  · exact State.runCall_answers taken _ own

theorem exec_storeStatus (admits : s.Admits .storeStatus o) (key : Bool) (seen : u = s.seeKey key) :
    exec (.storeStatus o (some ()) key) s
      = .next (u.answered .storeStatus o ⟨.ok, .store u.store.report u.store.lastResult key⟩) := by
  subst seen
  have answered := State.runCall_answers (own := ownStoreStatus) (a := ()) (admits.seeKey key) (s.seeKey key) rfl
  rw [setReceiver_store, s.seeKey_key] at answered
  exact (State.run_seeKey admits.running key _ _).trans answered

theorem storeCalls_spec : Claims.StoreCalls := by
  refine ⟨fun s u o a key admits seen => exec_storeSave admits a key seen, fun s u o key admits seen => ?_⟩
  rw [exec_storeStatus admits key seen]
  unfold Store.report
  rcases u.store.saving with - | - | - <;> rfl

/-! ### The end of an area's write (R174) -/

theorem exec_areaWriteComplete (running : s.power = .running) (agrees : Bool) :
    exec (.areaWriteComplete agrees) s = .next (s.areaWritten agrees) := State.run_running running _

theorem State.areaWritten_idle (idle : s.store.saving = none) (agrees : Bool) : s.areaWritten agrees = s := by
  unfold State.areaWritten
  rw [idle]

theorem State.areaWritten_commissioning (writing : s.store.saving = some (.commissioning x next)) :
    s.areaWritten true = (s.setStore { s.store with commCopy := .good x, commStatus := .valid }).afterCommissioning .valid next
    ∧ s.areaWritten false = s.spoilCommissioning.afterCommissioning (.damaged .check) next := by
  unfold State.areaWritten
  rw [writing]
  exact ⟨rfl, rfl⟩

theorem State.areaWritten_operating (writing : s.store.saving = some (.operating y done)) :
    s.areaWritten true = (s.setStore { s.store with operCopy := .good y, operStatus := .valid }).finishSave ⟨done, .valid⟩
    ∧ s.areaWritten false = s.spoilOperating.finishSave ⟨done, .damaged .check⟩ := by
  unfold State.areaWritten
  rw [writing]
  exact ⟨rfl, rfl⟩

/-- A commissioning write fails in two ways: by its check, which leaves KEY as it was, and by a fall of KEY. -/
theorem exec_spoilsCommissioning {cause : DamageCause} (running : s.power = .running)
    (writing : s.store.saving = some (.commissioning x next))
    (how : (c, cause, key) = (Instr.areaWriteComplete false, DamageCause.check, s.store.key)
      ∨ (c, cause, key) = (Instr.keyFall, .key, false)) : exec c s
    = .next ((s.setStore { s.store with key := key }).spoilCommissioning.afterCommissioning (.damaged cause) next) := by
  rcases how with h | h <;> cases h
  · exact (exec_areaWriteComplete running false).trans (congrArg _ (State.areaWritten_commissioning writing).2)
  · exact (exec_keyFall running).trans (congrArg _ (State.seeKey_abandons writing))

/-- What follows a failed commissioning write clears no flag and moves no table. -/
theorem State.commissioningSpoiled_stands (s : State) (z : Store) (outcome : AreaResult) (next : Option Operating)
    (e : t = (s.setStore z).spoilCommissioning.afterCommissioning outcome next) :
    t.links.isSet .storeDamaged = true ∧ t.commissioning = s.commissioning ∧ t.operating = s.operating := by
  subst e
  have after := (s.setStore z).spoilCommissioning.storeOnly_afterCommissioning outcome next
  exact ⟨after.keepsFlags _ (LinkInterface.isSet_raised _ _),
    (((s.storeOnly_setStore z).trans (State.storeOnly_spoilCommissioning _)).trans after).tables⟩

theorem State.operatingSpoiled_stands (s : State) (r : SaveResult) (e : t = s.spoilOperating.finishSave r) :
    t.links.isSet .storeDamaged = true ∧ t.commissioning = s.commissioning ∧ t.operating = s.operating := by
  subst e
  have after := s.spoilOperating.storeOnly_finishSave r
  exact ⟨after.keepsFlags _ (LinkInterface.isSet_raised _ _), (s.storeOnly_spoilOperating.trans after).tables⟩

theorem savesProceed_spec : Claims.SavesProceed := by
  refine ⟨storeResultOffered_spec, fun s agrees running => ⟨fun x next writing => ⟨?_, fun c cause key t u how spoiled e => ?_⟩,
    fun y done writing => ⟨?_, ?_, fun t u spoiled e => ?_⟩, fun idle => ⟨?_, ?_⟩⟩⟩
  · rw [exec_areaWriteComplete running, (State.areaWritten_commissioning writing).1]
    cases next <;> rfl
  · have left : t = (s.setStore { s.store with key := key }).spoilCommissioning.afterCommissioning (.damaged cause) next := by
      subst e spoiled
      cases next <;> rfl
    exact ⟨left ▸ exec_spoilsCommissioning running writing how, State.commissioningSpoiled_stands s _ _ _ left⟩
  · rw [exec_areaWriteComplete running, (State.areaWritten_operating writing).1]
    rfl
  · rw [exec_keyFall running, State.seeKey_recorded fun x next other => by rw [writing] at other; cases other]
  · have left : t = s.spoilOperating.finishSave ⟨done, .damaged .check⟩ := by
      subst e spoiled
      rfl
    rw [exec_areaWriteComplete running, (State.areaWritten_operating writing).2, left]
    exact ⟨rfl, State.operatingSpoiled_stands s _ rfl⟩
  · rw [exec_areaWriteComplete running, State.areaWritten_idle idle]
  · rw [exec_keyFall running, State.seeKey_recorded fun x next other => by rw [idle] at other; cases other]

/-- Settles O57: KEY seen, the two calls, and the rows of a save, each with what it leaves alone by `State.StoreOnly`. -/
theorem storeAndSaves : Obligations.StoreAndSaves := ⟨keySeen_spec, storeCalls_spec, savesProceed_spec⟩

end Sys2Proof.Machine
end

section
/-! SUPPORT. SHIFT_READ (R178, R182), which both links may make, and what one second boundary of the Accounting Unit makes of the
current summary (R179). -/

namespace Sys2Proof.Machine

variable {s : State} {o : Origin} {a : ShiftReadArgs}

/-! ### SHIFT_READ (R165, R182) -/

theorem State.admits_shiftRead (running : s.power = .running) (isOpen : s.links.restart = none) (o : Origin) :
    s.Admits .shiftRead o where
  running := running
  open_ := isOpen
  may := by cases o.link <;> rfl

theorem ownShiftRead_current (which : a.which = some .current) (s : State) :
    ownShiftRead a s = .report s (.shift (some s.accounts.current.report)) := by
  unfold ownShiftRead
  rw [which]

theorem ownShiftRead_previous (which : a.which = some .previous) (s : State) :
    ownShiftRead a s = .report s (.shift (s.accounts.previous.map Summary.report)) := by
  unfold ownShiftRead
  rw [which]

theorem ownShiftRead_neither (which : a.which = none) (s : State) : ownShiftRead a s = .turnedAway s .range := by
  unfold ownShiftRead
  rw [which]

theorem exec_shiftRead_current (admits : s.Admits .shiftRead o) (which : a.which = some .current) :
    exec (.shiftRead o (some a)) s = .next (s.answered .shiftRead o ⟨.ok, .shift (some s.accounts.current.report)⟩) :=
  State.runCall_answers admits s (ownShiftRead_current which _)

theorem exec_shiftRead_previous (admits : s.Admits .shiftRead o) (which : a.which = some .previous) :
    exec (.shiftRead o (some a)) s
      = .next (s.answered .shiftRead o ⟨.ok, .shift (s.accounts.previous.map Summary.report)⟩) :=
  State.runCall_answers admits s (ownShiftRead_previous which _)

theorem exec_shiftRead_neither (admits : s.Admits .shiftRead o) (which : a.which = none) :
    exec (.shiftRead o (some a)) s = .next (s.answered .shiftRead o ⟨.range, .bare⟩) :=
  State.runCall_turnedAway admits (ownShiftRead_neither which _)

/-- Settles O59: each `which` by its own case of the call; a previous summary that is present is reported, an absent one stays
absent. -/
theorem shiftRead : Obligations.ShiftRead := by
  intro s o a running isOpen
  have admits : s.Admits .shiftRead o := s.admits_shiftRead running isOpen o
  refine ⟨exec_shiftRead_current admits, fun x which present => ?_, fun which absent => ?_, exec_shiftRead_neither admits⟩
  · rw [exec_shiftRead_previous admits which, present]
    rfl
  · rw [exec_shiftRead_previous admits which, absent]
    rfl

/-! ### The second boundary (R179) -/

theorem Summary.second_zone (x : Summary) (p : Phase) (b : Allocator) (z : Fin 8) :
    (x.second p b).zones.get z = (x.zones.get z).credit (b.zones.get z).heat (b.zones.get z).fans :=
  Table.get_mapIdx _ _ _

/-- Of the six phase-seconds, the one of the phase in force gains a second and the others stand. -/
theorem Summary.second_phaseSeconds (x : Summary) (p : Phase) (b : Allocator) (q : Phase) :
    (x.second p b).phaseSeconds.get (phaseIndex q) =
      if q = p then satAdd Config.max32 (x.phaseSeconds.get (phaseIndex q)) 1 else x.phaseSeconds.get (phaseIndex q) := by
  refine (Table.get_modify _ _ _ _).trans ?_
  by_cases same : q = p
  · rw [if_pos same, if_pos (congrArg phaseIndex same.symm)]
  · rw [if_neg same, if_neg fun h => same (phaseIndex_injective h).symm]

/-- Settles O60: the two tables row by row; every other figure is a field of the summary as `Summary.second` writes it, and the
boundary writes nothing but the current summary. -/
theorem accountsSecond : Obligations.AccountsSecond := by
  rintro s t c d rfl rfl rfl
  have zones := s.accounts.current.second_zone s.phase s.budget
  have phases := s.accounts.current.second_phaseSeconds s.phase s.budget
  exact ⟨zones, phases, rfl, rfl, rfl, rfl, rfl, rfl, rfl⟩

end Sys2Proof.Machine
end

section
/-! SUPPORT. The step by its queue: a command waiting, or none (assumption 4). -/

namespace Sys2Proof.Machine

variable {s : State} {c : Instr} {rest : List Instr}

/-- `step_cons` for a state whose queue is known by an equation. -/
theorem step_of_pending_cons (front : s.pending = c :: rest) : step s = exec c { s with pending := rest } := by
  have queued : s = { s with pending := c :: rest } := by rw [← front]
  calc step s = step { s with pending := c :: rest } := congrArg step queued
    _ = exec c { s with pending := rest } := step_cons s c rest

theorem step_of_pending_nil (idle : s.pending = []) : step s = .next s := by
  unfold step
  rw [idle]

/-- Settles O5: the two cases of the queue. -/
theorem stepTakesFrontCommand : Obligations.StepTakesFrontCommand :=
  ⟨fun _ _ _ front => step_of_pending_cons front, fun _ idle => step_of_pending_nil idle⟩

end Sys2Proof.Machine
end
